-- ==== Sys2Proof/Word.lean ====
section
/-! DEFINITION. The word types of the trace unit: 32-bit registers and addresses, 64-bit trace words, bytes of trace memory
(spec/10_state.md R22, R37; spec/20_memory.md R62). -/

namespace Sys2Proof

/-- A 32-bit register value or virtual address. -/
abbrev Word := BitVec 32

/-- A 64-bit trace word: 58 data bits above a 6-bit tag (R112). -/
abbrev TraceWord := BitVec 64

/-- One byte of the trace memory. -/
abbrev Byte := BitVec 8

end Sys2Proof
end

