-- ==== Sys2Proof/Config.lean ====
section
/-! DEFINITION. What an implementation fixes (the parameter record of spec/00_scope.md R10) and the free values the spec leaves open. -/

namespace Sys2Proof.Config

/-- The implementation parameters of R10. They are held in State and no step changes them, so that a statement over all states is a
statement over all implementations (log 1). -/
structure Params where
  /-- IMPL_CYC, IMPL_FDT, IMPL_BM, IMPL_ER, IMPL_FCR: which special modes exist. -/
  implCyc : Bool
  implFdt : Bool
  implBm : Bool
  implEr : Bool
  implFcr : Bool
  /-- LEGAL_COMBO as a truth table, indexed by the bits CYC, FDT, BM, ER, FCR, EST (CYC highest). -/
  legalCombo : BitVec 64
  /-- HAS_ONCHIP_MEM and HAS_PIB. -/
  hasOnchip : Bool
  hasPib : Bool
  /-- OFC_PRESET, the reset value of OfC. -/
  ofcPreset : Bool
  /-- TMEM_WORDS, the trace words of on-chip trace memory. -/
  tmemWords : Nat
  /-- `n`, the top bit of the pointer Address fields. -/
  topBit : Nat
  /-- FIFO_WORDS, the depth of the queue before the PIB. -/
  fifoWords : Nat
  /-- The free queue words kept for messages that arrive during the stall latency (R210, R211). -/
  reserve : Nat
  /-- STALL_LATENCY, in cycles; no rule reads it (D4, log 44). -/
  stallLatency : Nat
  /-- REG_WIDTH is 64 (true) or 32 (false). -/
  regWidth64 : Bool
  /-- N_IBRK and N_DBRK. -/
  nIbrk : Nat
  nDbrk : Nat
  /-- HAS_TR_PROBE_N and PROBE_GATES_PORT. -/
  hasTrProbeN : Bool
  probeGatesPort : Bool
  /-- UTD_LATENCY and UTD_STALLS; no rule reads them (D4, log 44). -/
  utdLatency : Nat
  utdStalls : Bool
  /-- DRSEG_BASE; accesses name offsets, so only `drsegAddress` reads it (D5, log 44). -/
  drsegBase : BitVec 64
  deriving DecidableEq, Repr

/-- IMPL_EST: false iff none of the five special modes is implemented (R10). -/
def Params.implEst (p : Params) : Bool :=
  p.implCyc || p.implFdt || p.implBm || p.implEr || p.implFcr

/-- OFC_SETTABLE (R10). -/
def Params.ofcSettable (p : Params) : Bool :=
  p.hasOnchip && p.hasPib

/-- LEGAL_COMBO (R10). -/
def Params.legal (p : Params) (cyc fdt bm er fcr est : Bool) : Bool :=
  p.legalCombo.getLsbD
    (32 * cyc.toNat + 16 * fdt.toNat + 8 * bm.toNat + 4 * er.toNat + 2 * fcr.toNat + est.toNat)

/-- The address of a drseg register at `offset` (R61, D5). -/
def Params.drsegAddress (p : Params) (offset : Nat) : BitVec 64 :=
  p.drsegBase + BitVec.ofNat 64 offset

/-- The settings of the mode bits that R23, R29 and R161 (e) call legal in every implementation that has the modes: all bits clear; EST alone, with
CYC or without; EST with ER and FCR, with CYC or without. -/
def Params.legalAlways (p : Params) : Bool :=
  p.legal false false false false false false &&
  (!p.implEst || p.legal false false false false false true) &&
  (!p.implCyc || p.legal true false false false false true) &&
  (!(p.implEr && p.implFcr) || p.legal false false false true true true) &&
  (!(p.implEr && p.implFcr && p.implCyc) || p.legal true false false true true true)

/-- The constraints R10 puts on the parameters, with those on LEGAL_COMBO; `n <= 30` because Wrap is bit 31 (R39). -/
def Params.wf (p : Params) : Bool :=
  (p.hasOnchip || p.hasPib) &&
  (p.ofcSettable || p.ofcPreset == p.hasPib) &&
  decide (1 ≤ p.tmemWords) && decide (2 ≤ p.topBit) && decide (p.topBit ≤ 30) &&
  decide (8 * p.tmemWords ≤ 2 ^ (p.topBit + 1)) &&
  decide (p.nIbrk ≤ 15) && decide (p.nDbrk ≤ 15) &&
  (p.hasTrProbeN || !p.probeGatesPort) &&
  p.legalAlways

/-- The instance `State.reset` is for: every special mode and combination, on-chip memory of 1 KWord (n = 12, the example of R240),
a PIB with four queue words, a 32-bit core. DESIGN CHOICE (log 1). -/
def sample : Params :=
  { implCyc := true, implFdt := true, implBm := true, implEr := true, implFcr := true
    legalCombo := BitVec.allOnes 64
    hasOnchip := true, hasPib := true, ofcPreset := false
    tmemWords := 1024, topBit := 12, fifoWords := 4, reserve := 0, stallLatency := 0
    regWidth64 := false, nIbrk := 15, nDbrk := 15, hasTrProbeN := false, probeGatesPort := false
    utdLatency := 0, utdStalls := false, drsegBase := 0#64 }

/-- The free draws of one step (`choose`, R14). Nothing constrains any of them. -/
structure Draws where
  /-- N.RES is sent before the N.FPC of a software start or a DebugMode exit (D26, U25). -/
  resume : Bool
  /-- N.J8, or N.J16, is taken where it fits (D8, U23). -/
  pick8 : Bool
  pick16 : Bool
  /-- Which instruction and data triggers act after their instruction (D31, U27). -/
  afterI : BitVec 15
  afterD : BitVec 15
  /-- The value applied last when triggers disagree, among those before and those after (D33, U27). -/
  lastBefore : Bool
  lastAfter : Bool
  /-- The InstructionBreakpoint bit when both kinds match (D21, U16). -/
  ibBit : Bool
  /-- The order of the records of one instruction (D21, U30). -/
  order : Nat
  /-- Bit `k` set: word `k` of the queue is dropped at an overflow (D25, U26). -/
  drop : Nat
  /-- The phases of the two counters at trace-on (D9, D12, U24). -/
  syncPhase : Nat
  dcycPhase : Nat
  /-- The stream while its content is unpredictable (U2, U28). -/
  garbage : List (List Bool)
  deriving DecidableEq, Repr, Inhabited

/-- FREE VALUE: the draws, one bundle for each value of `State.drawIndex` (log 5). -/
opaque draws : Nat → Draws

/-- FREE VALUE: what trace memory holds at a byte address after the k-th reset and before the ITCB writes it (R45, R312, log 6). -/
opaque powerOnByte : (resets address : Nat) → Byte

/-- PARAMETER MULTI_MATCH_ID of R10, a function of the matching instruction and data breakpoints (log 20). -/
opaque multiMatchId : (ibp dbp : BitVec 15) → BitVec 4

/-- FREE VALUE: the bits of Config3 other than ITL, REG_WIDTH bits wide (R60, U32, log 41). -/
opaque config3Other : BitVec 64

/-- PARAMETER of the reader (R144): the address of the instruction after one in address order, in the program image (log 39). -/
opaque seqNext : (pc : Word) → (ncc : Bool) → Word

/-- PARAMETER of the reader (R144): the target of the branch now pending after the instructions replayed, newest first (log 39). -/
opaque staticTarget : (history : List (Word × Bool)) → Word

end Sys2Proof.Config
end

