-- ==== Sys2Proof/Syntax.lean ====
section
/-! DEFINITION. The thirteen trace messages of spec/opcode_table.json, one constructor per row (spec/30_encoding.md R91 to R105).
A message is this hardware's instruction (spec/00_scope.md R9). -/

namespace Sys2Proof

/-- A trace message. A `dc` operand is the DeltaCycle field, `some` exactly when `IFCTL.CYC = 1` (R105). -/
inductive Instr where
  /-- N.SEQ, sequentially executed instruction (R92, R133). -/
  | nSeq
  /-- N.BT, taken branch with a static target (R93, R134). -/
  | nBt
  /-- N.J8, dynamic target; `delta` is `PCdelta[8:1]` (R94, R135). -/
  | nJ8 (delta : BitVec 8)
  /-- N.J16, dynamic target; `delta` is `PCdelta[16:1]` (R95, R136). -/
  | nJ16 (delta : BitVec 16)
  /-- N.FPC, full PC: `pc` is `PC[31:1]`, `ncc` the no-code-compression bit (R96, R137). -/
  | nFpc (pc : BitVec 31) (ncc : Bool)
  /-- N.RES, resumption after a discontinuity (R97, R138). -/
  | nRes
  /-- S.DCR, delta cycle rollover (R98, R164). -/
  | sDcr
  /-- S.UTM, user trace message; `utm2` is 1 for UserTraceData2 (R99, R165). -/
  | sUtm (data : BitVec 32) (utm2 : Bool) (dc : Option (BitVec 10))
  /-- S.RSV, reserved type code (R100, R166). -/
  | sRsv
  /-- S.BM, breakpoint match; `ib` is the InstructionBreakpoint bit (R101, R167). -/
  | sBm (id : BitVec 4) (ib : Bool) (pc : BitVec 31) (ncc : Bool) (dc : Option (BitVec 10))
  /-- S.FD, filtered data; `addr` is `Addr[7:2]`, `field` the DataField (R102, R108, R169). -/
  | sFd (id : BitVec 4) (load full : Bool) (addr : BitVec 6) (field : BitVec 32) (dc : Option (BitVec 10))
  /-- S.FCE, function call, exception, return: bits FC, Ex, R (R103, R171). -/
  | sFce (fc ex r : Bool) (pc : BitVec 31) (ncc : Bool) (dc : Option (BitVec 10))
  /-- S.RES, resumption after a discontinuity in special mode (R104, R176). -/
  | sRes
  deriving DecidableEq, Repr, Inhabited

/-- The spec's own name of a message (R91, R117). -/
def Instr.mnemonic (i : Instr) : String :=
  match i with
  | .nSeq => "N.SEQ"
  | .nBt => "N.BT"
  | .nJ8 _ => "N.J8"
  | .nJ16 _ => "N.J16"
  | .nFpc _ _ => "N.FPC"
  | .nRes => "N.RES"
  | .sDcr => "S.DCR"
  | .sUtm _ _ _ => "S.UTM"
  | .sRsv => "S.RSV"
  | .sBm _ _ _ _ _ => "S.BM"
  | .sFd _ _ _ _ _ _ => "S.FD"
  | .sFce _ _ _ _ _ _ => "S.FCE"
  | .sRes => "S.RES"

end Sys2Proof
end

