-- ==== Sys2Proof/Machine/State.lean ====
section
/-! DEFINITION. The state of the trace unit and of the agents around it, as plain data, and the state after reset
(spec/10_state.md R20 to R54, spec/00_scope.md R13, spec/70_reset_and_hazards.md R310 to R313). -/

namespace Sys2Proof.Machine

/-- Reasons a step stops with a fault. -/
inductive Fault where
  /-- A pointer register holds an address outside trace memory (R62). Raised by a trace-word write or read. Safe: no run from reset
  reaches it (log 33). -/
  | noSuchTraceWord
  deriving DecidableEq, Repr

/-- Reasons a step is refused: the spec gives the run no meaning from there. -/
inductive Refusal where
  /-- An instruction whose meaning is not written. No arm uses it. Safe. -/
  | notModelled (mnemonic : String)
  /-- S.RSV on the unit's bus: it has no length and is never generated (R100, R166). Raised by `execSRsv`. Safe. -/
  | reservedMessage
  /-- A breakpoint with TE and BE both set matched, its gate open, in BM or FDT mode (R168, R170, R264, U6, log 31). Raised by a Retire. Safe. -/
  | breakEnableSet
  /-- Filtered data of an access wider than 32 bits (R169, N15). Raised by a Retire. Safe. -/
  | wideFilteredData
  /-- An access to an offset that R61 does not assign (U12). Raised by a register access. Safe. -/
  | unassignedOffset
  /-- An access to a trace-memory register where no on-chip memory exists (R61, U12). Raised by a register access. Safe. -/
  | noTraceMemory
  /-- A CP0 position that is none of the unit's (R42, R43, R69): the core's register, which the unit does not hold (R8 item 1, D29, log 55).
  Raised by a CP0 access. Safe. -/
  | notUnitRegister
  /-- A width other than those R66 admits (U12). Raised by a register access. Safe. -/
  | widthNotAdmitted
  /-- A read of ITCBTW while OfC = 1 (R208, U12). Raised by a register read. Safe. -/
  | traceWordOffChip
  /-- A pointer written with an address at or beyond the end of trace memory (R240, U11). Raised by a register write. Safe. -/
  | pointerOutOfRange
  /-- A write of IFCTL that changes the mode bits or OfC and leaves On = 1 (R321, U29). Raised by a register write. Safe. -/
  | modeChangeWhileOn
  deriving DecidableEq, Repr

/-- The three outcomes of a step of this machine. -/
abbrev Result := Host.Outcome

/-! ### Stimulus events (R13) -/

/-- How control came to an instruction (R131). -/
inductive Flow where
  | seq
  | takenStatic
  | dynamic
  deriving DecidableEq, Repr

/-- The load or store of a retired instruction (R13). `dbp` holds the data and tuple breakpoints that match with TE = 1, `dbpBe` those of
them whose BE bit is set (R168); `wide` marks an access of more than 32 bits (N15). -/
structure MemAccess where
  load : Bool
  be : BitVec 4
  addr : Word
  data : Word
  dbp : BitVec 15
  dbpBe : BitVec 15
  wide : Bool
  deriving DecidableEq, Repr

/-- An instruction that reaches the end of the execution path (R13, `Instr` there). `ibp` holds the instruction breakpoints that match with
TE = 1, `ibpBe` those of them whose BE bit is set (R168). -/
structure Retired where
  pc : Word
  ncc : Bool
  flow : Flow
  exc : Bool
  call : Bool
  ret : Bool
  eret : Bool
  ibp : BitVec 15
  ibpBe : BitVec 15
  mem : Option MemAccess
  deriving DecidableEq, Repr

/-- The width of a register access (R66). -/
inductive Width where
  | byte
  | half
  | word
  | double
  deriving DecidableEq, Repr

/-- One stimulus event (R13), with the CP0 reads of R244 and R246, the reset of R313 and the captures of R319. -/
inductive Event where
  /-- One core clock cycle; false while clocks are stopped by WAIT (R163). -/
  | tick (clockRunning : Bool)
  /-- One instruction reaches the end of the execution path. -/
  | retire (i : Retired)
  /-- Software writes the CP0 register at a position: UserTraceData1 at (23, 3), UserTraceData2 at (24, 3) (R69). -/
  | cp0Write (register select : Nat) (v : BitVec 64)
  /-- Software reads the CP0 register at a position (R244). -/
  | cp0Read (register select : Nat)
  /-- Software reads Config3 (R246). -/
  | config3Read
  /-- The processor enters or leaves DebugMode (R287). -/
  | debugEnter
  | debugLeave
  /-- An access to a drseg-mapped register (R230). -/
  | regRead (offset : Nat) (width : Width)
  | regWrite (offset : Nat) (width : Width) (v : BitVec 64)
  /-- The PIB removes one trace word for transmission (R212). -/
  | pibTake
  /-- One transfer slot in which no word is sent (R213). -/
  | idleSlot
  /-- The level of TR_PROBE_N; true: probe connected, pin low (R215). -/
  | probeAttach (connected : Bool)
  /-- Reset of the core and the unit (R313). -/
  | reset
  /-- A reader is given a capture and its mode (R319). -/
  | capture (est cyc : Bool) (words : List TraceWord)
  /-- The same, with the words the probe receiver holds (R216). -/
  | captureProbe (est cyc : Bool)
  deriving DecidableEq, Repr

/-! ### Registers -/

/-- IFCTL, field by field (R22 to R36); the reserved field 30:15 has no storage. -/
structure Ifctl where
  illegal : Bool
  cyc : Bool
  fdt : Bool
  bm : Bool
  er : Bool
  fcr : Bool
  est : Bool
  syp : BitVec 4
  ofClk : Bool
  ofc : Bool
  io : Bool
  en : Bool
  on : Bool
  deriving DecidableEq, Repr

/-- ITrigiFlowTrcEn or DTrigiFlowTrcEn: bit 28 (IE or DE) and bits 14:0 (IBrk or DBrk) (R40, R41). -/
structure TrigReg where
  gate : Bool
  brk : BitVec 15
  deriving DecidableEq, Repr

/-! ### Trace memory (R45, R62) -/

/-- Trace memory: the written bytes by byte address, addresses strictly rising. A byte not listed was not written since reset. -/
abbrev Memory := List Host.Cell

/-! ### The port and the agents outside -/

/-- A trace word in transmission and the nibble on TR_DATA now (R51, R212). -/
structure Tx where
  word : TraceWord
  nibble : Fin 16
  deriving DecidableEq, Repr

/-- A trace word of a capture; `afterGap` if reception had a gap before it (R216). -/
structure Captured where
  word : TraceWord
  afterGap : Bool
  deriving DecidableEq, Repr

/-- The probe's receiver: the nibbles of the word begun, oldest first, the words received, oldest first, and whether reception had a gap since
the last of them (R216). -/
structure Receiver where
  nibbles : List (BitVec 4)
  words : List Captured
  gap : Bool
  deriving DecidableEq, Repr

/-- What a reader reports (R144, R178). A `time` is the cycles since the previous timed event, none when CYC = 0. -/
inductive Report where
  /-- An instruction executed at a known address. -/
  | executed (pc : Word) (ncc : Bool)
  /-- An instruction executed at an unknown address. -/
  | executedUnknown
  /-- N.RES or S.RES: something may be missing here. -/
  | gap
  /-- S.UTM. -/
  | user (utm2 : Bool) (data : Word) (time : Option Nat)
  /-- S.BM. -/
  | breakpoint (id : BitVec 4) (ib : Bool) (pc : Word) (ncc : Bool) (time : Option Nat)
  /-- S.FD: with `full` false the value is the low 24 bits and `be` the byte enables (R108). -/
  | data (id : BitVec 4) (load full : Bool) (addr : BitVec 6) (be : BitVec 4) (value : Word) (time : Option Nat)
  /-- S.FCE. -/
  | control (fc ex r : Bool) (pc : Word) (ncc : Bool) (time : Option Nat)
  /-- S.RSV: the rest of the word was abandoned. -/
  | abandoned
  /-- A word whose tag is unused, reserved or never generated was rejected (U18). -/
  | corruptWord
  /-- A message cut by an overflow was discarded (R216). -/
  | cutMessage
  /-- Reception had a gap: words may be missing here (R216). -/
  | receptionGap
  deriving DecidableEq, Repr

/-- The trace reader (R109, R114, R116, R144, R178, R216). -/
structure Reader where
  /-- The reader is at work: `exec` gives messages their decoder effect. -/
  active : Bool
  /-- The mode it was told (R319). -/
  est : Bool
  cyc : Bool
  /-- The words and the bits not yet read. -/
  words : List Captured
  bits : List Bool
  /-- `bits` begins at a message boundary; false at the start, after S.RSV, after a rejected word and after a gap in reception. -/
  aligned : Bool
  /-- The replay of normal mode (R144). -/
  pc : Word
  ncc : Bool
  synced : Bool
  /-- The instructions replayed since the last gap, newest first: the history of R144's `static_target`. -/
  history : List (Word × Bool)
  /-- The cycles of rollovers not yet reported (R178). -/
  elapsed : Nat
  /-- The reports, newest first. -/
  reports : List Report
  deriving DecidableEq, Repr

/-! ### The state -/

/-- The whole state (INVENTORY.md, State). -/
structure State where
  /-- The implementation parameters; no step changes them (R10, log 1). -/
  params : Config.Params
  ifctl : Ifctl
  /-- ITCBRDP.Address (R38). -/
  rdpAddr : Word
  /-- ITCBWRP.Address and Wrap (R39). -/
  wrpAddr : Word
  wrpWrap : Bool
  itrig : TrigReg
  dtrig : TrigReg
  /-- UserTraceData1 and UserTraceData2; on a 32-bit core the upper half is 0 (R42, R43). -/
  utd1 : BitVec 64
  utd2 : BitVec 64
  tmem : Memory
  /-- The message accumulator, oldest bit first, and the position of the first message that begins in the word (R46). -/
  acc : List Bool
  firstStart : Option Nat
  syncCtr : Nat
  dcyc : BitVec 10
  lastPc : Word
  lastNcc : Bool
  needFullPc : Bool
  discont : Bool
  /-- The queue before the PIB, oldest first (R51). -/
  fifo : List TraceWord
  tx : Option Tx
  /-- TR_DATA now, TR_CLK after the last transfer slot, and the core cycles all slots took (R115, R213, R214, log 36). -/
  trData : BitVec 4
  trClk : Bool
  portCycles : Nat
  debugMode : Bool
  probeConnected : Bool
  /-- The bus from the core tracing logic to the ITCB: messages decided and not yet taken, oldest first (R118, log 4). -/
  bus : List Instr
  /-- The `pc` and `ncc` of the Retire event being traced (R14). -/
  curPc : Word
  curNcc : Bool
  /-- The value a trigger gives `En` once its instruction's messages are taken (R262, D31, log 17). -/
  latchedEn : Option Bool
  /-- What the last register read returned. -/
  readData : BitVec 64
  /-- The stimulus still to come (R13, log 3). -/
  events : List Event
  receiver : Receiver
  reader : Reader
  /-- How many draws were taken, and how many reset events happened: the indices of the free values (logs 5 and 6). -/
  drawIndex : Nat
  resetCount : Nat
  deriving DecidableEq, Repr

/-- IFCTL after reset: every field 0 but OfC, which is preset (R53, R310). -/
def Ifctl.reset (p : Config.Params) : Ifctl :=
  { illegal := false, cyc := false, fdt := false, bm := false, er := false, fcr := false, est := false, syp := 0#4
    ofClk := false, ofc := p.ofcPreset, io := false, en := false, on := false }

/-- A receiver that has received nothing (R216). -/
def Receiver.idle : Receiver := { nibbles := [], words := [], gap := false }

/-- A reader with nothing to read. -/
def Reader.idle : Reader :=
  { active := false, est := false, cyc := false, words := [], bits := [], aligned := false, pc := 0#32, ncc := false
    synced := false, history := [], elapsed := 0, reports := [] }

/-- The machine of an implementation right after reset (R53, R310 to R312). The values the spec does not give are those of logs 6 to 9 and
36. -/
def State.resetOf (p : Config.Params) : State :=
  { params := p
    ifctl := Ifctl.reset p
    rdpAddr := 0#32, wrpAddr := 0#32, wrpWrap := false
    itrig := { gate := false, brk := 0#15 }, dtrig := { gate := false, brk := 0#15 }
    utd1 := 0#64, utd2 := 0#64
    tmem := []
    acc := [], firstStart := none
    syncCtr := 0, dcyc := 0#10
    lastPc := 0#32, lastNcc := false
    needFullPc := true, discont := false
    fifo := [], tx := none
    trData := 0#4, trClk := false, portCycles := 0
    debugMode := false, probeConnected := true
    bus := [], curPc := 0#32, curNcc := false, latchedEn := none
    readData := 0#64
    events := [], receiver := Receiver.idle, reader := Reader.idle
    drawIndex := 0, resetCount := 0 }

/-- The machine right after reset, for the instance of log 1. -/
def State.reset : State := State.resetOf Config.sample

end Sys2Proof.Machine
end

