-- ==== Sys2Proof/WellFormed.lean ====
section
/-! DEFINITION. Which messages belong to a mode (R90, R105) and which of them the unit may generate (R108, R166, R169, R171). -/

namespace Sys2Proof

/-- The message belongs to the special-mode set (R91). -/
def Instr.isSpecial (i : Instr) : Bool :=
  match i with
  | .nSeq | .nBt | .nJ8 _ | .nJ16 _ | .nFpc _ _ | .nRes => false
  | .sDcr | .sUtm _ _ _ | .sRsv | .sBm _ _ _ _ _ | .sFd _ _ _ _ _ _ | .sFce _ _ _ _ _ _ | .sRes => true

/-- The DeltaCycle operand of a message that has room for one (R105). -/
def Instr.delta (i : Instr) : Option (Option (BitVec 10)) :=
  match i with
  | .nSeq | .nBt | .nJ8 _ | .nJ16 _ | .nFpc _ _ | .nRes | .sDcr | .sRsv | .sRes => none
  | .sUtm _ _ dc | .sBm _ _ _ _ dc | .sFd _ _ _ _ _ dc | .sFce _ _ _ _ _ dc => some dc

/-- The message is one of the set that `IFCTL.EST = est` selects, and carries a DeltaCycle field exactly when `IFCTL.CYC = cyc` says
so (R90, R105). This is what the encoding admits. -/
def Instr.fits (est cyc : Bool) (i : Instr) : Bool :=
  i.isSpecial == est && (match i.delta with | none => true | some dc => dc.isSome == cyc)

/-- The number of ones of a 4-bit value. -/
def popCount4 (v : BitVec 4) : Nat :=
  (List.range 4).countP v.getLsbD

/-- An S.FD data field is laid out as R108 says: with FullWord = 0 the byte enables select fewer than four bytes and every bit between
them and the value is zero. -/
def fieldLaidOut (full : Bool) (field : BitVec 32) : Bool :=
  full || (popCount4 (field.extractLsb' 28 4) < 4 &&
    (field.extractLsb' 0 28).toNat < 2 ^ (8 * popCount4 (field.extractLsb' 28 4)))

/-- What the unit may generate in the mode: R166 (S.RSV never), R169 with R108 (the data field), R171 (some event bit set), R162
(a reported count is 0 to 1022). -/
def Instr.wellFormed (est cyc : Bool) (i : Instr) : Bool :=
  i.fits est cyc &&
  (match i.delta with | some (some d) => d != 1023#10 | _ => true) &&
  (match i with
  | .sRsv => false
  | .sFd _ _ full _ field _ => fieldLaidOut full field
  | .sFce fc ex r _ _ _ => fc || ex || r
  | .sDcr => cyc
  | .nSeq | .nBt | .nJ8 _ | .nJ16 _ | .nFpc _ _ | .nRes | .sUtm _ _ _ | .sBm _ _ _ _ _ | .sRes => true)

end Sys2Proof
end

