-- ==== Sys2Proof/Machine/Operands.lean ====
section
/-! DEFINITION. Operand assembly (spec/30_encoding.md R106 to R108), breakpoint sets (spec/44_breakpoint_triggering.md R261, R265), and the
instructions that count as calls and returns (spec/41_special_trace_messages.md R172). -/

namespace Sys2Proof.Machine

/-! ### PC operands (R106, R107) -/

/-- The difference of R106. -/
def pcDelta (pc lastPc : Word) : Word :=
  pc - lastPc

/-- N.J8 can carry the difference (R106, D8). -/
def fits8 (d : Word) : Bool :=
  (d.extractLsb' 0 9).signExtend 32 == d && !d.getLsbD 0

/-- N.J16 can carry the difference (R106, D8). -/
def fits16 (d : Word) : Bool :=
  (d.extractLsb' 0 17).signExtend 32 == d && !d.getLsbD 0

/-- `PCdelta[8:1]`. -/
def delta8 (d : Word) : BitVec 8 :=
  d.extractLsb' 1 8

/-- `PCdelta[16:1]`. -/
def delta16 (d : Word) : BitVec 16 :=
  d.extractLsb' 1 16

/-- `PC[31:1]`. -/
def pcField (pc : Word) : BitVec 31 :=
  pc.extractLsb' 1 31

/-- The reader's PC from a `PC[31:1]` field: bit 0 clear (R107). -/
def fieldPc (field : BitVec 31) : Word :=
  field ++ 0#1

/-- The reader's offset from an N.J8 field (R106). -/
def offset8 (field : BitVec 8) : Word :=
  (field ++ 0#1 : BitVec 9).signExtend 32

/-- The reader's offset from an N.J16 field (R106). -/
def offset16 (field : BitVec 16) : Word :=
  (field ++ 0#1 : BitVec 17).signExtend 32

/-! ### The S.FD data field (R108, R169) -/

/-- FullWord: all four byte enables (R169). -/
def fullWord (be : BitVec 4) : Bool :=
  be == 15#4

/-- DataField: the word, or the byte enables above the right-justified value (R108). -/
def dataField (be : BitVec 4) (data : Word) : BitVec 32 :=
  if fullWord be then data
  else be ++ (BitVec.ofNat 28 (data.toNat % 2 ^ (8 * popCount4 be)))

/-- `Addr[7:2]`. -/
def addrField (addr : Word) : BitVec 6 :=
  addr.extractLsb' 2 6

/-- The byte enables a reader takes from the field (R108). -/
def fieldEnables (full : Bool) (field : BitVec 32) : BitVec 4 :=
  if full then 15#4 else field.extractLsb' 28 4

/-- The value a reader takes from the field: with FullWord = 0 its low 24 bits (R108). -/
def fieldValue (full : Bool) (field : BitVec 32) : Word :=
  if full then field else (field.extractLsb' 0 24).setWidth 32

/-! ### Breakpoint sets (R260, R261) -/

/-- The breakpoints `0 .. n-1`. -/
def implemented (n : Nat) : BitVec 15 :=
  BitVec.ofNat 15 (2 ^ n - 1)

/-- The members of a breakpoint set, lowest first. -/
def members (b : BitVec 15) : List Nat :=
  (List.range 15).filter b.getLsbD

/-- A trigger set after its bit-28 gate (R261), kept to the breakpoints that exist (R242). -/
def gated (r : TrigReg) (n : Nat) (b : BitVec 15) : BitVec 15 :=
  if r.gate then b &&& implemented n else 0#15

/-- `I(i)` of R261. -/
def instrTriggers (s : State) (i : Retired) : BitVec 15 :=
  gated s.itrig s.params.nIbrk i.ibp

/-- The data and tuple breakpoints an instruction carries; none without a load or store (R265). -/
def dataMatches (i : Retired) : BitVec 15 :=
  match i.mem with
  | none => 0#15
  | some m => m.dbp

/-- Those of them with BE set (R168). -/
def dataBreakEnables (i : Retired) : BitVec 15 :=
  match i.mem with
  | none => 0#15
  | some m => m.dbpBe

/-- `D(i)` of R261. -/
def dataTriggers (s : State) (i : Retired) : BitVec 15 :=
  gated s.dtrig s.params.nDbrk (dataMatches i)

/-- The number of the only member of two breakpoint sets together, if there is exactly one (R167). -/
def onlyMember (ibp dbp : BitVec 15) : Option Nat :=
  match members ibp ++ members dbp with
  | [b] => some b
  | _ => none

/-- BreakpointID: the only match, or MULTI_MATCH_ID (R167, R168, R170). -/
def breakpointId (ibp dbp : BitVec 15) : BitVec 4 :=
  match onlyMember ibp dbp with
  | some b => BitVec.ofNat 4 b
  | none => Config.multiMatchId ibp dbp

/-- InstructionBreakpoint: 1 for an instruction breakpoint (D32); a draw when both kinds match (R168). -/
def instrBreakBit (ibp dbp : BitVec 15) (draw : Bool) : Bool :=
  if ibp == 0#15 then false else if dbp == 0#15 then true else draw

/-! ### Calls and returns (R172) -/

/-- The instruction sets R172 lists. -/
inductive Isa where
  | mips
  | mips16e
  | micromips
  deriving DecidableEq, Repr

/-- The function calls of R172. -/
def callNames (isa : Isa) : List String :=
  match isa with
  | .mips => ["JAL", "JALR", "JALR.HB", "JALX"]
  | .mips16e => ["JAL", "JALR", "JALX", "JALRC"]
  | .micromips => ["JAL", "JALR", "JALR.HB", "JALX", "JALR16", "JALRS16", "JALRS", "JALRS.HB", "JALS"]

/-- The function returns of R172. -/
def returnNames (isa : Isa) : List String :=
  match isa with
  | .mips => ["JR", "JR.HB"]
  | .mips16e => ["JR", "JRC"]
  | .micromips => ["JR", "JR.HB", "JRC", "JRADDIUSP", "JR16"]

/-- The exception and interrupt returns of R172; IRET with the MCU ASE. -/
def exceptionReturnNames (mcuAse : Bool) : List String :=
  if mcuAse then ["ERET", "IRET"] else ["ERET"]

/-- The `call`, `ret` and `eret` attributes of a Retire event, from the opcode's name alone (R172). -/
def classify (isa : Isa) (mcuAse : Bool) (name : String) : Bool × Bool × Bool :=
  ((callNames isa).contains name, (returnNames isa).contains name, (exceptionReturnNames mcuAse).contains name)

/-- NCC of the instruction sets R107 settles; a microMIPS instruction's is an input (N8, log 15). -/
def nccOf (isa : Isa) (micromipsNcc : Bool) : Bool :=
  match isa with
  | .mips => true
  | .mips16e => false
  | .micromips => micromipsNcc

end Sys2Proof.Machine
end

