-- ==== Sys2Proof/Decode.lean ====
section
/-! DEFINITION. Bit strings, the message decoder and encoder, the tag of a trace word, and the fixed entry `decodeTableWord`
(spec/30_encoding.md R90 to R118). -/

namespace Sys2Proof

/-! ### Bit strings: the first element is bit 0, the bit generated first (R12, R118) -/

/-- The `n` low bits of `v`, lowest first. -/
def toBits (n v : Nat) : List Bool :=
  match n with
  | 0 => []
  | k + 1 => (v % 2 == 1) :: toBits k (v / 2)

/-- The number whose bits, lowest first, are `bits`. -/
def ofBits (bits : List Bool) : Nat :=
  match bits with
  | [] => 0
  | b :: bs => b.toNat + 2 * ofBits bs

/-- The bits of a field, bit 0 first. -/
def fieldBits {n : Nat} (v : BitVec n) : List Bool :=
  toBits n v.toNat

/-! ### The opcode table (R91) -/

/-- One row of the table of R91. -/
structure OpcodeRow where
  mnemonic : String
  special : Bool
  mask : Nat
  pattern : Nat
  /-- Total bits with CYC = 0 and with CYC = 1; none where the spec defines no length (S.RSV). -/
  length : Option (Nat × Nat)
  deriving DecidableEq, Repr

/-- The thirteen rows of R91. -/
def opcodeRows : List OpcodeRow :=
  [⟨"N.SEQ", false, 0x1, 0x0, some (1, 1)⟩, ⟨"N.BT", false, 0x3, 0x1, some (2, 2)⟩,
   ⟨"N.J8", false, 0xF, 0x3, some (12, 12)⟩, ⟨"N.J16", false, 0xF, 0xB, some (20, 20)⟩,
   ⟨"N.FPC", false, 0xF, 0x7, some (36, 36)⟩, ⟨"N.RES", false, 0xF, 0xF, some (4, 4)⟩,
   ⟨"S.DCR", true, 0x3, 0x0, some (2, 2)⟩, ⟨"S.UTM", true, 0x7, 0x2, some (36, 46)⟩,
   ⟨"S.RSV", true, 0x7, 0x6, none⟩, ⟨"S.BM", true, 0x3, 0x1, some (39, 49)⟩,
   ⟨"S.FD", true, 0x7, 0x3, some (47, 57)⟩, ⟨"S.FCE", true, 0xF, 0x7, some (39, 49)⟩,
   ⟨"S.RES", true, 0xF, 0xF, some (4, 4)⟩]

/-! ### Decoding (R109, R110) -/

/-- What decoding a bit string from a message boundary answers. The code sets are complete (R109), so the only rejection is a
string that ends inside a message. -/
inductive Decoded where
  /-- A message and the bits after it. -/
  | message (i : Instr) (rest : List Bool)
  /-- The bits end before the message does. -/
  | truncated
  deriving DecidableEq, Repr

/-- Take a field of `n` bits, or reject the string as truncated. -/
def takeField (n : Nat) (bits : List Bool) (k : BitVec n → List Bool → Decoded) : Decoded :=
  if bits.length < n then .truncated else k (BitVec.ofNat n (ofBits (bits.take n))) (bits.drop n)

/-- Take one flag bit, or reject the string as truncated. -/
def takeFlag (bits : List Bool) (k : Bool → List Bool → Decoded) : Decoded :=
  match bits with
  | [] => .truncated
  | b :: rest => k b rest

/-- Take the DeltaCycle field, present only when `CYC = 1` (R105). -/
def takeDelta (cyc : Bool) (bits : List Bool) (k : Option (BitVec 10) → List Bool → Decoded) : Decoded :=
  if cyc then takeField 10 bits (fun d rest => k (some d) rest) else k none bits

/-- Decode a normal-mode message (R92 to R97, R109). -/
def decodeNormal (bits : List Bool) : Decoded :=
  match bits with
  | false :: rest => .message .nSeq rest
  | true :: false :: rest => .message .nBt rest
  | true :: true :: false :: false :: rest => takeField 8 rest fun d r => .message (.nJ8 d) r
  | true :: true :: false :: true :: rest => takeField 16 rest fun d r => .message (.nJ16 d) r
  | true :: true :: true :: false :: rest =>
      takeField 31 rest fun pc r => takeFlag r fun ncc r => .message (.nFpc pc ncc) r
  | true :: true :: true :: true :: rest => .message .nRes rest
  | [] | [true] | [true, true] | [true, true, _] => .truncated

/-- Decode a special-mode message (R98 to R105, R109). -/
def decodeSpecial (cyc : Bool) (bits : List Bool) : Decoded :=
  match bits with
  | false :: false :: rest => .message .sDcr rest
  | false :: true :: false :: rest =>
      takeField 32 rest fun data r => takeFlag r fun utm2 r => takeDelta cyc r fun dc r => .message (.sUtm data utm2 dc) r
  | false :: true :: true :: rest => .message .sRsv rest
  | true :: false :: rest =>
      takeField 4 rest fun id r => takeFlag r fun ib r => takeField 31 r fun pc r => takeFlag r fun ncc r =>
        takeDelta cyc r fun dc r => .message (.sBm id ib pc ncc dc) r
  | true :: true :: false :: rest =>
      takeField 4 rest fun id r => takeFlag r fun load r => takeFlag r fun full r => takeField 6 r fun addr r =>
        takeField 32 r fun field r => takeDelta cyc r fun dc r => .message (.sFd id load full addr field dc) r
  | true :: true :: true :: false :: rest =>
      takeFlag rest fun fc r => takeFlag r fun ex r => takeFlag r fun ret r => takeField 31 r fun pc r =>
        takeFlag r fun ncc r => takeDelta cyc r fun dc r => .message (.sFce fc ex ret pc ncc dc) r
  | true :: true :: true :: true :: rest => .message .sRes rest
  | [] | [_] | [false, true] | [true, true] | [true, true, true] => .truncated

/-- Decode the message at a boundary of a stream captured with `IFCTL.EST = est` and `IFCTL.CYC = cyc` (R90, R109). -/
def decode (est cyc : Bool) (bits : List Bool) : Decoded :=
  if est then decodeSpecial cyc bits else decodeNormal bits

/-! ### Encoding (R92 to R105) -/

/-- The DeltaCycle field above the last fixed field, if the message has one (R105). -/
def deltaBits (dc : Option (BitVec 10)) : List Bool :=
  match dc with
  | none => []
  | some d => fieldBits d

/-- The bits of a message, bit 0 first (R92 to R105). S.RSV has a type code and nothing else (R100). -/
def encode (i : Instr) : List Bool :=
  match i with
  | .nSeq => [false]
  | .nBt => [true, false]
  | .nJ8 d => [true, true, false, false] ++ fieldBits d
  | .nJ16 d => [true, true, false, true] ++ fieldBits d
  | .nFpc pc ncc => [true, true, true, false] ++ fieldBits pc ++ [ncc]
  | .nRes => [true, true, true, true]
  | .sDcr => [false, false]
  | .sUtm data utm2 dc => [false, true, false] ++ fieldBits data ++ [utm2] ++ deltaBits dc
  | .sRsv => [false, true, true]
  | .sBm id ib pc ncc dc => [true, false] ++ fieldBits id ++ [ib] ++ fieldBits pc ++ [ncc] ++ deltaBits dc
  | .sFd id load full addr field dc =>
      [true, true, false] ++ fieldBits id ++ [load, full] ++ fieldBits addr ++ fieldBits field ++ deltaBits dc
  | .sFce fc ex r pc ncc dc => [true, true, true, false, fc, ex, r] ++ fieldBits pc ++ [ncc] ++ deltaBits dc
  | .sRes => [true, true, true, true]

/-- The message as one number, its bit 0 the first bit sent (R91, spec/95_test_vectors.md conventions). -/
def messageNumber (i : Instr) : Nat :=
  ofBits (encode i)

/-- Decode a whole bit string as consecutive messages (R109, R110); `fuel` bounds their number. The leftover bits, too few for a
message, are answered beside the list. -/
def decodeStream (est cyc : Bool) (fuel : Nat) (bits : List Bool) : List Instr × List Bool :=
  match fuel with
  | 0 => ([], bits)
  | k + 1 =>
    match decode est cyc bits with
    | .truncated => ([], bits)
    | .message i rest => (i :: (decodeStream est cyc k rest).1, (decodeStream est cyc k rest).2)

/-! ### The trace word (R112 to R114) -/

/-- The tag for a first message beginning at bit `s` (R113). -/
def encTag (s : Nat) : BitVec 6 :=
  if s = 0 then 58#6 else if s = 16 then 59#6 else if s = 32 then 60#6 else if s = 48 then 61#6 else BitVec.ofNat 6 s

/-- The starting bit a tag stands for; none for a value that is unused, reserved or never generated (R114, U18). -/
def decTag (t : BitVec 6) : Option Nat :=
  if t = 58#6 then some 0 else if t = 59#6 then some 16 else if t = 60#6 then some 32 else if t = 61#6 then some 48
  else if t = 0#6 ∨ t = 16#6 ∨ t = 32#6 ∨ t = 48#6 ∨ t = 57#6 ∨ t = 62#6 ∨ t = 63#6 then none
  else some t.toNat

/-- A trace word: the 58 data bits in 63:6, the tag in 5:0 (R112). -/
def packWord (data : List Bool) (tag : BitVec 6) : TraceWord :=
  BitVec.ofNat 58 (ofBits data) ++ tag

/-- The tag of a trace word (R112). -/
def wordTag (w : TraceWord) : BitVec 6 :=
  w.extractLsb' 0 6

/-- The 58 data bits of a trace word, `Data[0]` first (R112). -/
def wordData (w : TraceWord) : List Bool :=
  fieldBits (w.extractLsb' 6 58)

/-! ### The fixed entry of the opcode table -/

/-- A mode a message can be read in: `(EST, CYC)`. -/
abbrev ReadMode := Bool × Bool

/-- The longest message has 57 bits (R91). -/
def longestMessage : Nat := 57

/-- Whole bytes of a message, in bits. -/
def byteBits (i : Instr) : Nat :=
  ((encode i).length + 7) / 8 * 8

/-- The message that the word `w` holds in a mode, if `w` is exactly one message (no bit set above it). -/
def exactMessage (m : ReadMode) (w : Nat) : Option Instr :=
  match decode m.1 m.2 (toBits longestMessage w) with
  | .truncated => none
  | .message i rest => if rest.any id then none else some i

/-- The modes in the order they are tried: normal, special, special with delta cycles. -/
def readModes : List ReadMode := [(false, false), (true, false), (true, true)]

/-- The word is exactly one message in the mode, of `nbits` bits in whole bytes. -/
def exactLength (nbits w : Nat) (m : ReadMode) : Bool :=
  match exactMessage m w with
  | none => false
  | some i => byteBits i == nbits

/-- The mode in which the word `w` of `nbits` bits is read. A word does not say its mode (R90, R319), so the length tells it where it
can, and the mode of reset (EST = 0, R310) goes first (DESIGN CHOICE, log 40). -/
def tableMode (nbits w : Nat) : Option ReadMode :=
  match readModes.find? (exactLength nbits w) with
  | some m => some m
  | none => readModes.find? (fun m => (exactMessage m w).isSome)

/-- The instruction the decoder reads from an instruction whose bits are `w` (log 40). -/
def decodeTableWord (nbits w : Nat) : Option Instr :=
  match tableMode nbits w with
  | none => none
  | some m => exactMessage m w

end Sys2Proof
end

