-- ==== Sys2Proof/Machine/Flags.lean ====
section
/-! DEFINITION. The two status bits (spec/10_state.md R54) and the signals computed from the registers: `Illegal` (R23), In_TraceOn (R201),
In_Stall (R210), Out_Valid (R6), the unpredictable settings (R161), the synchronization period (R31). -/

namespace Sys2Proof.Machine

/-- `Illegal`, as a function of the mode bits (R23). -/
def illegalOf (p : Config.Params) (r : Ifctl) : Bool :=
  !p.legal r.cyc r.fdt r.bm r.er r.fcr r.est

/-- A special mode bit is set (R161 (d)). -/
def specialBits (r : Ifctl) : Bool :=
  r.cyc || r.fdt || r.bm || r.er || r.fcr

/-- The content of the stream is unpredictable in this setting: `Illegal`, or special mode bits without EST (R161, D19). -/
def unpredictable (r : Ifctl) : Bool :=
  r.illegal || (!r.est && specialBits r)

/-- In_TraceOn (R201, D13). -/
def inTraceOn (s : State) : Bool :=
  s.ifctl.on && s.ifctl.en && !s.debugMode

/-- The queue has no room for a word (R208). -/
def fifoFull (s : State) : Bool :=
  decide (s.params.fifoWords ≤ s.fifo.length)

/-- In_Stall (R210). -/
def inStall (s : State) : Bool :=
  s.ifctl.ofc && s.ifctl.io && decide (s.params.fifoWords - s.fifo.length ≤ s.params.reserve)

/-- Out_Valid: a message is offered on the bus (R6, R118). -/
def outValid (s : State) : Bool :=
  !s.bus.isEmpty

/-- The synchronization period in instructions (R31). -/
def syncPeriod (r : Ifctl) : Nat :=
  2 ^ (r.syp.toNat + 8)

/-- The core clock cycles of one transfer slot (R214). OfClk is ignored unless OfC is set (R32); a slot then counts as with OfClk clear (DESIGN
CHOICE, log 36). -/
def slotCycles (r : Ifctl) : Nat :=
  if r.ofc && r.ofClk then 1 else 2

/-- The off-chip port is enabled (R215). -/
def portEnabled (s : State) : Bool :=
  !(s.params.hasTrProbeN && s.params.probeGatesPort) || s.probeConnected

/-- The wrap flag after a trace word is written at the top of trace memory or below it: set at the top, else kept (R39, R207). -/
def wrapAfter (wasTop wrap : Bool) : Bool :=
  wasTop || wrap

end Sys2Proof.Machine
end

