-- ==== Sys2Proof/Machine/Ops.lean ====
section
/-! DEFINITION. The shared operations: trace memory (spec/20_memory.md R62), the ITCB's accumulation, trace words, flush and overflow
(spec/42_itcb_trace_words.md R202 to R209), trace-on (R201), triggers on `En` (R262, R268). The unit takes no exception (R280);
what stands in that place is `overflow`, and the return from it is the resumption message (R138, R176). -/

namespace Sys2Proof.Machine

/-! ### Outcomes -/

/-- Go on with the next state, if there is one. -/
def andThen (o : Result State Fault Refusal) (k : State → Result State Fault Refusal) : Result State Fault Refusal :=
  match o with
  | .next s => k s
  | .fault r => .fault r
  | .refused r => .refused r

/-- The next state, if the outcome is one. -/
def nextState (o : Result State Fault Refusal) : Option State :=
  match o with
  | .next s => some s
  | .fault _ => none
  | .refused _ => none

/-! ### Trace memory (R62) -/

/-- The canonical form: addresses strictly rising. An unlisted byte has no value of its own, so no entry can repeat one. -/
def Memory.wf (m : Memory) : Bool :=
  match m with
  | [] => true
  | [_] => true
  | a :: b :: rest => decide (a.1 < b.1) && Memory.wf (b :: rest)

/-- The byte written at an address since reset, if any. -/
def memLookup (a : Nat) (m : Memory) : Option Byte :=
  match m with
  | [] => none
  | c :: rest => if c.1 = a then some c.2 else memLookup a rest

/-- Write one byte, keeping the addresses rising. -/
def memInsert (a : Nat) (b : Byte) (m : Memory) : Memory :=
  match m with
  | [] => [(a, b)]
  | c :: rest => if a < c.1 then (a, b) :: c :: rest else if a = c.1 then (a, b) :: rest else c :: memInsert a b rest

/-- Byte `j` of a trace word as trace memory holds it, low byte first (log 6). -/
def wordByte (w : TraceWord) (j : Nat) : Byte :=
  w.extractLsb' (8 * j) 8

/-- Write the bytes `j, j+1, .., j+n-1` of a trace word at `a + j`, `a + j + 1`, ... -/
def memWriteBytes (a : Nat) (w : TraceWord) (j n : Nat) (m : Memory) : Memory :=
  match n with
  | 0 => m
  | k + 1 => memWriteBytes a w (j + 1) k (memInsert (a + j) (wordByte w j) m)

/-- `MemWrite(a, 8, w)` (R62). -/
def memWriteWord (a : Nat) (w : TraceWord) (m : Memory) : Memory :=
  memWriteBytes a w 0 8 m

/-- What the byte at an address of trace memory reads as: the byte written, or the unknown value it holds since reset (R45, log 6). -/
def readByte (s : State) (a : Nat) : Byte :=
  match memLookup a s.tmem with
  | some b => b
  | none => Config.powerOnByte s.resetCount a

/-- `MemRead(a, 8)` (R62). -/
def readWord (s : State) (a : Nat) : TraceWord :=
  readByte s (a + 7) ++ readByte s (a + 6) ++ readByte s (a + 5) ++ readByte s (a + 4) ++
    readByte s (a + 3) ++ readByte s (a + 2) ++ readByte s (a + 1) ++ readByte s a

/-- `TMEM_TOP` (R62). -/
def tmemTop (p : Config.Params) : Nat :=
  8 * (p.tmemWords - 1)

/-- The address selects a trace word of this memory (R62). -/
def inTraceMemory (p : Config.Params) (a : Word) : Bool :=
  decide (a.toNat < 8 * p.tmemWords)

/-- A pointer after it passed its word: up by 8, from TMEM_TOP to 0 (R64, R207). -/
def advance (p : Config.Params) (a : Word) : Word :=
  if a.toNat = tmemTop p then 0#32 else a + 8#32

/-! ### Where a trace word goes (R207 to R209) -/

/-- Keep the queue words whose bit of `drop` is clear; `k` is the position of the first. -/
def dropWords (drop k : Nat) (q : List TraceWord) : List TraceWord :=
  match q with
  | [] => []
  | w :: rest => if drop.testBit k then dropWords drop (k + 1) rest else w :: dropWords drop (k + 1) rest

/-- Overflow (R209): the word that did not fit and the accumulator are lost, and any of the queued words the draw says (D25). -/
def overflow (s : State) : State :=
  { s with
    acc := [], firstStart := none, discont := true, needFullPc := true
    fifo := dropWords (Config.draws s.drawIndex).drop 0 s.fifo
    drawIndex := s.drawIndex + 1 }

/-- Off-chip: queue the word, or lose it (R208, R209). -/
def queueWord (w : TraceWord) (s : State) : State :=
  if fifoFull s then overflow s else { s with fifo := s.fifo ++ [w] }

/-- On-chip: write the word at ITCBWRP and advance the pointer, setting Wrap at the top (R207). -/
def storeWord (w : TraceWord) (s : State) : State :=
  { s with
    tmem := memWriteWord s.wrpAddr.toNat w s.tmem
    wrpAddr := advance s.params s.wrpAddr
    wrpWrap := wrapAfter (decide (s.wrpAddr.toNat = tmemTop s.params)) s.wrpWrap }

/-- `write_word` (R207, R208). -/
def writeWord (w : TraceWord) (s : State) : Result State Fault Refusal :=
  if s.ifctl.ofc then .next (queueWord w s)
  else if inTraceMemory s.params s.wrpAddr then .next (storeWord w s)
  else .fault .noSuchTraceWord

/-! ### Accumulation and flush (R202, R203, R205) -/

/-- The position of the first message that begins in the word, once a message begins at the end of `acc` (R202). -/
def startPosition (s : State) : Nat :=
  match s.firstStart with
  | some k => k
  | none => s.acc.length

/-- The accumulator after taking a message, before a full word leaves it (R202). -/
def accumulate (m : List Bool) (s : State) : State :=
  { s with acc := s.acc ++ m, firstStart := some (startPosition s) }

/-- The word of the 58 oldest bits, and the state with them gone (R202, R203). -/
def takeWord (s : State) : TraceWord × State :=
  (packWord (s.acc.take 58) (encTag (startPosition s)), { s with acc := s.acc.drop 58, firstStart := none })

/-- `emit(m)` (R202): take the message, and write a word out once 58 bits are there. -/
def emit (m : List Bool) (s : State) : Result State Fault Refusal :=
  if s.acc.length + m.length < 58 then .next (accumulate m s)
  else writeWord (takeWord (accumulate m s)).1 (takeWord (accumulate m s)).2

/-- A message of these bits completes a trace word (R202). -/
def completesWord (m : List Bool) (s : State) : Bool :=
  decide (58 ≤ s.acc.length + m.length)

/-- The trace-memory address that `emit` stores to: ITCBWRP, when the message completes a word on chip (R207). -/
def emitStoresAt (m : List Bool) (s : State) : Option Nat :=
  if completesWord m s && !s.ifctl.ofc then some s.wrpAddr.toNat else none

/-- The word a flush writes: the accumulated bits, ones above them (R205, R116). The tag is the first message's position, or that of
the first fill bit (D15). -/
def flushWord (s : State) : TraceWord :=
  packWord (s.acc ++ List.replicate (58 - s.acc.length) true) (encTag (startPosition s))

/-- The state with nothing accumulated. -/
def clearAcc (s : State) : State :=
  { s with acc := [], firstStart := none }

/-- `flush()` (R205). -/
def flush (s : State) : Result State Fault Refusal :=
  if s.acc.isEmpty then .next (clearAcc s) else writeWord (flushWord s) (clearAcc s)

/-! ### Taking a message from the bus (R6, R118, R202) -/

/-- The ITCB takes a message: ignored while In_TraceOn is off (U22), else emitted. -/
def sendBits (m : List Bool) (s : State) : Result State Fault Refusal :=
  if inTraceOn s then emit m s else .next s

/-- The state in which a message that stands for the instruction being traced is emitted: it becomes the last traced one, and no full PC is
due (R133 to R137). An overflow while emitting sets `need_full_pc` again (R209, log 11). -/
def noteTraced (s : State) : State :=
  { s with lastPc := s.curPc, lastNcc := s.curNcc, needFullPc := false }

/-- Send a normal-mode message that stands for the instruction being traced. -/
def sendTraced (m : List Bool) (s : State) : Result State Fault Refusal :=
  if inTraceOn s then emit m (noteTraced s) else .next s

/-- The state in which N.RES is emitted (R138). -/
def noteResumed (s : State) : State :=
  { s with discont := false, needFullPc := true }

/-- The state in which S.RES is emitted (R176). -/
def noteResumedSpecial (s : State) : State :=
  { s with discont := false, dcyc := 0#10 }

/-! ### Trace-on and triggers (R201, R262, R268) -/

/-- What an off-to-on change of In_TraceOn does (R201, R141, R162). -/
def traceStart (d : Config.Draws) (s : State) : State :=
  { s with
    needFullPc := true
    syncCtr := 1 + d.syncPhase % syncPeriod s.ifctl
    dcyc := BitVec.ofNat 10 (d.dcycPhase % 1023) }

/-- Re-evaluate In_TraceOn after a change; `was` is its value before (R201). -/
def reevaluate (d : Config.Draws) (was : Bool) (s : State) : State :=
  if !was && inTraceOn s then traceStart d s else s

/-- Give `En` a value. -/
def setEn (b : Bool) (s : State) : State :=
  { s with ifctl := { s.ifctl with en := b } }

/-- A trigger gives `En` a value: a change is a discontinuity (R262, R268). -/
def applyTrigger (d : Config.Draws) (b : Bool) (s : State) : State :=
  if s.ifctl.en == b then s
  else reevaluate d (inTraceOn s) (setEn b { s with discont := true })

end Sys2Proof.Machine
end

