-- ==== Sys2Proof/Machine/Reader.lean ====
section
/-! DEFINITION. The trace reader: the decoder effect of each message and how the reader gets from trace words to messages
(spec/30_encoding.md R109, R114, R116; spec/40_normal_trace_messages.md R144; spec/41_special_trace_messages.md R178;
spec/42_itcb_trace_words.md R216). -/

namespace Sys2Proof.Machine

/-- Put a reader in the state. -/
def setReader (r : Reader) (s : State) : State :=
  { s with reader := r }

/-- Add a report. -/
def addReport (e : Report) (r : Reader) : Reader :=
  { r with reports := e :: r.reports }

/-! ### Normal mode (R144) -/

/-- One instruction executed at a known address. -/
def replayAt (pc : Word) (ncc : Bool) (r : Reader) : Reader :=
  { r with pc := pc, ncc := ncc, synced := true, history := (pc, ncc) :: r.history, reports := .executed pc ncc :: r.reports }

/-- One instruction at the address a message gives, if the reader is synchronised; else one at an unknown address (R144). -/
def replayNext (pc : Word) (r : Reader) : Reader :=
  if r.synced then replayAt pc r.ncc r else addReport .executedUnknown r

/-- N.RES: the PC is discarded until the next N.FPC (R138, R144). -/
def replayGap (r : Reader) : Reader :=
  { r with synced := false, history := [], reports := .gap :: r.reports }

/-! ### Special mode (R178) -/

/-- The time a message reports: the rollovers pending and its own count; none without CYC (R178). -/
def reportTime (dc : Option (BitVec 10)) (r : Reader) : Option Nat :=
  match dc with
  | none => none
  | some d => some (r.elapsed + d.toNat)

/-- Report an event; the pending count starts again (R178). -/
def reportEvent (e : Report) (r : Reader) : Reader :=
  { r with elapsed := 0, reports := e :: r.reports }

/-- S.DCR: 1023 cycles more (R164, R178). -/
def readRollover (r : Reader) : Reader :=
  { r with elapsed := r.elapsed + 1023 }

/-- S.RES: a gap; elapsed-time accounting restarts (R176, R178). -/
def readResume (r : Reader) : Reader :=
  { r with elapsed := 0, reports := .gap :: r.reports }

/-- S.RSV: the rest of the word is abandoned and the next word's tag gives the boundary (R100, R178). A code that spans two words: the spec does not
say which is the current trace word; the rest of the word in which the code ends is dropped, and the tag of the word after it gives the
boundary (DESIGN CHOICE, log 51). -/
def abandonWord (r : Reader) : Reader :=
  { r with bits := [], aligned := false, reports := .abandoned :: r.reports }

/-! ### From words to messages (R114, R116, R216) -/

/-- Words are missing from here on: the boundary is lost, and with it the PC of the replay and the pending cycles (R216; the last two are the
model's choice, log 56). -/
def loseBoundary (e : Report) (r : Reader) : Reader :=
  { r with bits := [], aligned := false, synced := false, history := [], elapsed := 0, reports := e :: r.reports }

/-- Take the bits of the next word. A tag that is no start rejects the word (U18). Without a boundary the tag gives one (R110). A word that begins
at `Data[0]` while bits are still expected shows that the message they belong to was cut (R216). -/
def takeWordBits (w : TraceWord) (rest : List Captured) (r : Reader) : Reader :=
  match decTag (wordTag w) with
  | none => loseBoundary .corruptWord { r with words := rest }
  | some start =>
    if r.aligned then
      if start == 0 && !r.bits.isEmpty then
        { r with words := rest, bits := wordData w, reports := .cutMessage :: r.reports }
      else { r with words := rest, bits := r.bits ++ wordData w }
    else { r with words := rest, bits := (wordData w).drop start, aligned := true }

/-- Take the next word of the capture: behind a gap in reception its tag gives the boundary (R216). -/
def takeTraceWord (c : Captured) (rest : List Captured) (r : Reader) : Reader :=
  takeWordBits c.word rest (if c.afterGap then loseBoundary .receptionGap r else r)

/-- What is left is fill: only ones, and all of them in the last word (R116). -/
def atFill (r : Reader) : Bool :=
  r.aligned && r.words.isEmpty && decide (r.bits.length ≤ 58) && r.bits.all id

/-- The reader is done with its capture. -/
def stopReading (r : Reader) : Reader :=
  { r with active := false, words := [], bits := [], aligned := false }

/-- Go on without a whole message: take the next word, or stop at the end of the capture. -/
def advanceReader (r : Reader) : Reader :=
  match r.words with
  | [] => stopReading r
  | c :: rest => takeTraceWord c rest r

/-- What the reader meets next. -/
inductive ReaderFetch where
  /-- A message; the reader stands behind it. -/
  | message (i : Instr) (r : Reader)
  /-- No whole message yet; the reader has moved on or stopped. -/
  | moved (r : Reader)
  deriving DecidableEq, Repr

/-- The message at the reader's boundary, decoded in the mode it was told. -/
def readerDecode (r : Reader) : Decoded :=
  if r.aligned then decode r.est r.cyc r.bits else .truncated

/-- Fetch: at fill stop, else decode the message at the boundary, else move on. -/
def readerFetch (r : Reader) : ReaderFetch :=
  if atFill r then .moved (stopReading r)
  else
    match readerDecode r with
    | .message i rest => .message i { r with bits := rest }
    | .truncated => .moved (advanceReader r)

/-- The words of a capture without gaps, such as one read out of trace memory. -/
def wholeCapture (words : List TraceWord) : List Captured :=
  words.map fun w => { word := w, afterGap := false }

/-- A reader at the start of a capture in a mode it was told (R319). -/
def startReading (est cyc : Bool) (words : List Captured) : Reader :=
  { Reader.idle with active := true, est := est, cyc := cyc, words := words }

/-- A reader that stands before the bits of one message in a mode (for `withFetchWord`, log 3). -/
def readingBits (est cyc : Bool) (bits : List Bool) (r : Reader) : Reader :=
  { r with active := true, est := est, cyc := cyc, words := [], bits := bits, aligned := true }

/-- The 58-bit data fields of consecutive words joined: the message stream (R216). -/
def joinData (words : List TraceWord) : List Bool :=
  match words with
  | [] => []
  | w :: rest => wordData w ++ joinData rest

end Sys2Proof.Machine
end

