-- ==== Sys2Proof/Machine/Normal.lean ====
section
/-! DEFINITION. The normal-mode messages (spec/40_normal_trace_messages.md R133 to R138). Each has its effect on the unit's side (the message is
emitted) and, while the reader is active, its decoder effect (R144). -/

namespace Sys2Proof.Machine

/-- N.SEQ (R133): the next instruction in address order. -/
def execNSeq (s : State) : Result State Fault Refusal :=
  if s.reader.active then .next (setReader (replayNext (Config.seqNext s.reader.pc s.reader.ncc) s.reader) s)
  else sendTraced (encode .nSeq) s

/-- N.BT (R134): the pending branch was taken. -/
def execNBt (s : State) : Result State Fault Refusal :=
  if s.reader.active then .next (setReader (replayNext (Config.staticTarget s.reader.history) s.reader) s)
  else sendTraced (encode .nBt) s

/-- N.J8 (R135): a dynamic target at an 8-bit offset. -/
def execNJ8 (delta : BitVec 8) (s : State) : Result State Fault Refusal :=
  if s.reader.active then .next (setReader (replayNext (s.reader.pc + offset8 delta) s.reader) s)
  else sendTraced (encode (.nJ8 delta)) s

/-- N.J16 (R136): a dynamic target at a 16-bit offset. -/
def execNJ16 (delta : BitVec 16) (s : State) : Result State Fault Refusal :=
  if s.reader.active then .next (setReader (replayNext (s.reader.pc + offset16 delta) s.reader) s)
  else sendTraced (encode (.nJ16 delta)) s

/-- N.FPC (R137): a full PC and the instruction-set mode. -/
def execNFpc (pc : BitVec 31) (ncc : Bool) (s : State) : Result State Fault Refusal :=
  if s.reader.active then .next (setReader (replayAt (fieldPc pc) ncc s.reader) s)
  else sendTraced (encode (.nFpc pc ncc)) s

/-- N.RES (R138): resumption after a discontinuity; the next message is an N.FPC. -/
def execNRes (s : State) : Result State Fault Refusal :=
  if s.reader.active then .next (setReader (replayGap s.reader) s)
  else if inTraceOn s then emit (encode .nRes) (noteResumed s)
  else .next s

end Sys2Proof.Machine
end

