-- ==== Sys2Proof/Machine/Special.lean ====
section
/-! DEFINITION. The special-mode messages (spec/41_special_trace_messages.md R164 to R176). Each has its effect on the unit's side (the message is
emitted; its DeltaCycle was filled in and `dcyc` cleared when the core tracing logic generated it, log 46) and, while the reader is
active, its decoder effect (R178). -/

namespace Sys2Proof.Machine

/-- S.DCR (R164): 1023 cycles passed. -/
def execSDcr (s : State) : Result State Fault Refusal :=
  if s.reader.active then .next (setReader (readRollover s.reader) s)
  else sendBits (encode .sDcr) s

/-- S.UTM (R165): a user message. -/
def execSUtm (data : BitVec 32) (utm2 : Bool) (dc : Option (BitVec 10)) (s : State) : Result State Fault Refusal :=
  if s.reader.active then
    .next (setReader (reportEvent (.user utm2 data (reportTime dc s.reader)) s.reader) s)
  else sendBits (encode (.sUtm data utm2 dc)) s

/-- S.RSV (R100, R166): the unit never generates it, and it has no length; a reader abandons the rest of the word. -/
def execSRsv (s : State) : Result State Fault Refusal :=
  if s.reader.active then .next (setReader (abandonWord s.reader) s)
  else .refused .reservedMessage

/-- S.BM (R167): a breakpoint matched at this PC. -/
def execSBm (id : BitVec 4) (ib : Bool) (pc : BitVec 31) (ncc : Bool) (dc : Option (BitVec 10)) (s : State) :
    Result State Fault Refusal :=
  if s.reader.active then
    .next (setReader (reportEvent (.breakpoint id ib (fieldPc pc) ncc (reportTime dc s.reader)) s.reader) s)
  else sendBits (encode (.sBm id ib pc ncc dc)) s

/-- S.FD (R169): the data of a load or store at a data breakpoint. -/
def execSFd (id : BitVec 4) (load full : Bool) (addr : BitVec 6) (field : BitVec 32) (dc : Option (BitVec 10)) (s : State) :
    Result State Fault Refusal :=
  if s.reader.active then
    .next (setReader (reportEvent
      (.data id load full addr (fieldEnables full field) (fieldValue full field) (reportTime dc s.reader)) s.reader) s)
  else sendBits (encode (.sFd id load full addr field dc)) s

/-- S.FCE (R171): a function call, an exception entry, or a return. -/
def execSFce (fc ex r : Bool) (pc : BitVec 31) (ncc : Bool) (dc : Option (BitVec 10)) (s : State) :
    Result State Fault Refusal :=
  if s.reader.active then
    .next (setReader (reportEvent (.control fc ex r (fieldPc pc) ncc (reportTime dc s.reader)) s.reader) s)
  else sendBits (encode (.sFce fc ex r pc ncc dc)) s

/-- S.RES (R176): resumption after a discontinuity; no full PC follows. -/
def execSRes (s : State) : Result State Fault Refusal :=
  if s.reader.active then .next (setReader (readResume s.reader) s)
  else if inTraceOn s then emit (encode .sRes) (noteResumedSpecial s)
  else .next s

end Sys2Proof.Machine
end

