-- ==== Sys2Proof/Machine/Dispatch.lean ====
section
/-! DEFINITION. The meaning of each message: one arm per row of spec/opcode_table.json. -/

namespace Sys2Proof.Machine

/-- Execute one message: on the unit's side it is emitted, on the active reader's side it has its decoder effect. -/
def exec (i : Instr) (s : State) : Host.Outcome State Fault Refusal :=
  match i with
  | .nSeq => Sys2Proof.Machine.execNSeq s
  | .nBt => Sys2Proof.Machine.execNBt s
  | .nJ8 delta => Sys2Proof.Machine.execNJ8 delta s
  | .nJ16 delta => Sys2Proof.Machine.execNJ16 delta s
  | .nFpc pc ncc => Sys2Proof.Machine.execNFpc pc ncc s
  | .nRes => Sys2Proof.Machine.execNRes s
  | .sDcr => Sys2Proof.Machine.execSDcr s
  | .sUtm data utm2 dc => Sys2Proof.Machine.execSUtm data utm2 dc s
  | .sRsv => Sys2Proof.Machine.execSRsv s
  | .sBm id ib pc ncc dc => Sys2Proof.Machine.execSBm id ib pc ncc dc s
  | .sFd id load full addr field dc => Sys2Proof.Machine.execSFd id load full addr field dc s
  | .sFce fc ex r pc ncc dc => Sys2Proof.Machine.execSFce fc ex r pc ncc dc s
  | .sRes => Sys2Proof.Machine.execSRes s

end Sys2Proof.Machine
end

