-- ==== Sys2Proof/Machine/Pib.lean ====
section
/-! DEFINITION. The Probe Interface Block and the probe's receiver (spec/42_itcb_trace_words.md R212 to R216). -/

namespace Sys2Proof.Machine

/-- The receiver after sixteen nibbles, lowest first, make a word (R216). -/
def nibblesWord (nibbles : List (BitVec 4)) : TraceWord :=
  match nibbles with
  | [] => 0#64
  | n :: rest => (nibblesWord rest <<< 4) ||| n.setWidth 64

/-- The receiver samples one slot: idle it waits for a nibble that is not zero, then it collects sixteen (R213, R216). -/
def sample (n : BitVec 4) (r : Receiver) : Receiver :=
  if r.nibbles.isEmpty && n == 0#4 then r
  else if r.nibbles.length + 1 < 16 then { r with nibbles := r.nibbles ++ [n] }
  else { nibbles := [], words := r.words ++ [{ word := nibblesWord (r.nibbles ++ [n]), afterGap := r.gap }], gap := false }

/-- A slot passes that the receiver does not sample: a gap in reception, and the word begun, if any, is lost (R216). Whether a word was in the
slot the receiver cannot know (log 56). -/
def missSlot (r : Receiver) : Receiver :=
  { r with nibbles := [], gap := true }

/-- One transfer slot with `n` on TR_DATA passes (R212 to R214). TR_CLK has one edge in it while a probe is connected, and the receiver of a
connected probe samples it. -/
def slot (n : BitVec 4) (s : State) : State :=
  { s with
    trClk := if s.probeConnected then !s.trClk else s.trClk
    portCycles := s.portCycles + slotCycles s.ifctl
    receiver := if s.probeConnected then sample n s.receiver else missSlot s.receiver }

/-- Nibble `k` of a trace word: `TW[4k+3:4k]` (R115). -/
def nibble (w : TraceWord) (k : Fin 16) : BitVec 4 :=
  w.extractLsb' (4 * k.val) 4

/-- What the port carries: the nibble of the word in transmission, zero between words (R115, R213). -/
def portNibble (tx : Option Tx) : BitVec 4 :=
  match tx with
  | none => 0#4
  | some t => nibble t.word t.nibble

/-- Give the port a word in transmission, or none. -/
def drive (tx : Option Tx) (s : State) : State :=
  { s with tx := tx, trData := portNibble tx }

/-- What is in transmission after a slot: the next nibble, or nothing after the sixteenth (R212). -/
def nextTx (t : Tx) : Option Tx :=
  if t.nibble = 15 then none else some { t with nibble := t.nibble + 1 }

/-- One slot of a word in transmission passes (R212). -/
def transfer (t : Tx) (s : State) : State :=
  drive (nextTx t) (slot (nibble t.word t.nibble) s)

/-- `PibTake` is enabled: off-chip mode, a word queued, nothing in transmission, the port enabled (R212). -/
def pibReady (s : State) : Bool :=
  s.ifctl.ofc && !s.fifo.isEmpty && s.tx.isNone && portEnabled s

/-- An idle slot: nothing is in transmission and TR_DATA is zero (R213). It may come between any two words, also where the second is queued
already: the spec requires no gap and forces no `PibTake` (DESIGN CHOICE, log 37). A design without a PIB has none. -/
def idleSlot (s : State) : State :=
  if s.params.hasPib && s.tx.isNone then drive none (slot 0#4 s) else s

/-- Load the oldest queued word for transmission: its first nibble is on TR_DATA (R212). -/
def loadTx (s : State) : State :=
  match s.fifo with
  | [] => s
  | w :: rest => drive (some { word := w, nibble := 0 }) { s with fifo := rest }

/-- `PibTake` (R212); where it is not enabled the slot is idle (DESIGN CHOICE, log 37). -/
def pibTake (s : State) : State :=
  if pibReady s then loadTx s else idleSlot s

/-- `ProbeAttach(b)` (R215): without TR_PROBE_N the pin is tied low, and the probe counts as connected. -/
def probeAttach (b : Bool) (s : State) : State :=
  { s with probeConnected := b || !s.params.hasTrProbeN }

end Sys2Proof.Machine
end

