-- ==== Sys2Proof/Machine/Registers.lean ====
section
/-! DEFINITION. Register accesses (spec/43_register_access.md R230 to R246, spec/20_memory.md R61, R66). -/

namespace Sys2Proof.Machine

/-! ### The register map (R61) -/

/-- The registers of the drseg window. -/
inductive DrsegReg where
  | itcbtwLow
  | itcbtwHigh
  | itcbrdp
  | itcbwrp
  | ifctl
  | itrig
  | dtrig
  deriving DecidableEq, Repr

/-- The register at an offset (R61). -/
def drsegReg (offset : Nat) : Option DrsegReg :=
  match offset with
  | 0x3F80 => some .itcbtwLow
  | 0x3F84 => some .itcbtwHigh
  | 0x3F88 => some .itcbrdp
  | 0x3F90 => some .itcbwrp
  | 0x3FC0 => some .ifctl
  | 0x3FD0 => some .itrig
  | 0x3FD8 => some .dtrig
  | _ => none

/-- The register exists only with on-chip memory (R61). -/
def needsTraceMemory (r : DrsegReg) : Bool :=
  match r with
  | .itcbtwLow | .itcbtwHigh | .itcbrdp | .itcbwrp => true
  | .ifctl | .itrig | .dtrig => false

/-! ### Register values -/

/-- What a read of IFCTL returns (R231). -/
def ifctlValue (r : Ifctl) : Word :=
  BitVec.ofBool r.illegal ++ 0#16 ++ BitVec.ofBool r.cyc ++ BitVec.ofBool r.fdt ++ BitVec.ofBool r.bm ++
    BitVec.ofBool r.er ++ BitVec.ofBool r.fcr ++ BitVec.ofBool r.est ++ r.syp ++ BitVec.ofBool r.ofClk ++
    BitVec.ofBool r.ofc ++ BitVec.ofBool r.io ++ BitVec.ofBool r.en ++ BitVec.ofBool r.on

/-- What a read of ITCBWRP returns (R241). -/
def wrpValue (s : State) : Word :=
  s.wrpAddr ||| (BitVec.ofBool s.wrpWrap ++ 0#31)

/-- What a read of a trigger-enable register returns (R242). -/
def trigValue (r : TrigReg) : Word :=
  0#3 ++ BitVec.ofBool r.gate ++ 0#13 ++ r.brk

/-- The writable bits n:3 of a pointer register (R38, R39). -/
def addressMask (p : Config.Params) : Word :=
  BitVec.ofNat 32 (2 ^ (p.topBit + 1) - 8)

/-- The unit's CP0 registers by their position: UserTraceData1 (false) at (23, 3), UserTraceData2 (true) at (24, 3) (R42, R43, R69). -/
def cp0Register (register select : Nat) : Option Bool :=
  match register, select with
  | 23, 3 => some false
  | 24, 3 => some true
  | _, _ => none

/-- What a read of Config3 returns: ITL is 1, the other bits are open, on a 64-bit core bits 63:32 too (R44, R60, R246, U32). That a 32-bit core's
value has zeros there is the width of `readData`, not of the register (log 41). -/
def config3Value (p : Config.Params) : BitVec 64 :=
  if p.regWidth64 then Config.config3Other ||| 0x100#64 else ((Config.config3Other ||| 0x100#64).setWidth 32).setWidth 64

/-! ### Reads (R231, R236 to R244) -/

/-- A read returned a value. -/
def returns (v : BitVec 64) (s : State) : Result State Fault Refusal :=
  .next { s with readData := v }

/-- A read of ITCBTW that returns the bits `v` of the word, and then does `k` (R236 to R238). It is refused in off-chip mode (R208). -/
def readTraceWord (v : TraceWord → BitVec 64) (k : State → State) (s : State) : Result State Fault Refusal :=
  if s.ifctl.ofc then .refused .traceWordOffChip
  else if inTraceMemory s.params s.rdpAddr then returns (v (readWord s s.rdpAddr.toNat)) (k s)
  else .fault .noSuchTraceWord

/-- ITCBRDP moves on to the next trace word (R236). -/
def advanceRead (s : State) : State :=
  { s with rdpAddr := advance s.params s.rdpAddr }

/-- An aligned 32-bit read. -/
def readWord32 (r : DrsegReg) (s : State) : Result State Fault Refusal :=
  match r with
  | .itcbtwLow => readTraceWord (fun w => (w.extractLsb' 0 32).setWidth 64) advanceRead s
  | .itcbtwHigh => readTraceWord (fun w => (w.extractLsb' 32 32).setWidth 64) id s
  | .itcbrdp => returns (s.rdpAddr.setWidth 64) s
  | .itcbwrp => returns ((wrpValue s).setWidth 64) s
  | .ifctl => returns ((ifctlValue s.ifctl).setWidth 64) s
  | .itrig => returns ((trigValue s.itrig).setWidth 64) s
  | .dtrig => returns ((trigValue s.dtrig).setWidth 64) s

/-- The 64-bit read of ITCBTW, on a 64-bit core only (R66, R238). -/
def readWord64 (r : DrsegReg) (s : State) : Result State Fault Refusal :=
  match r with
  | .itcbtwLow => if s.params.regWidth64 then readTraceWord id advanceRead s else .refused .widthNotAdmitted
  | .itcbtwHigh | .itcbrdp | .itcbwrp | .ifctl | .itrig | .dtrig => .refused .widthNotAdmitted

/-- A read of a register that exists. -/
def readRegister (r : DrsegReg) (width : Width) (s : State) : Result State Fault Refusal :=
  match width with
  | .word => readWord32 r s
  | .double => readWord64 r s
  | .byte | .half => .refused .widthNotAdmitted

/-- `RegRead(offset, width)`. -/
def regRead (offset : Nat) (width : Width) (s : State) : Result State Fault Refusal :=
  match drsegReg offset with
  | none => .refused .unassignedOffset
  | some r => if needsTraceMemory r && !s.params.hasOnchip then .refused .noTraceMemory else readRegister r width s

/-- `Cp0Read` of UserTraceData1 or UserTraceData2 (R244). -/
def cp0Read (second : Bool) (s : State) : Result State Fault Refusal :=
  returns (if second then s.utd2 else s.utd1) s

/-- A CP0 access at a position: to one of the unit's registers, or to one the unit does not hold (log 55). -/
def cp0Access (register select : Nat) (k : Bool → Result State Fault Refusal) : Result State Fault Refusal :=
  match cp0Register register select with
  | none => .refused .notUnitRegister
  | some second => k second

/-- `Cp0Read` of Config3 (R246). -/
def config3Read (s : State) : Result State Fault Refusal :=
  returns (config3Value s.params) s

/-! ### Writes (R232, R239 to R243) -/

/-- The mode bits and fields a write of IFCTL leaves (R232), `Illegal` apart. -/
def ifctlFields (p : Config.Params) (v : Word) (r : Ifctl) : Ifctl :=
  { illegal := r.illegal
    cyc := if p.implCyc then v.getLsbD 14 else r.cyc
    fdt := if p.implFdt then v.getLsbD 13 else r.fdt
    bm := if p.implBm then v.getLsbD 12 else r.bm
    er := if p.implEr then v.getLsbD 11 else r.er
    fcr := if p.implFcr then v.getLsbD 10 else r.fcr
    est := if p.implEst then v.getLsbD 9 else r.est
    syp := v.extractLsb' 5 4
    ofClk := v.getLsbD 4
    ofc := if p.ofcSettable then v.getLsbD 3 else r.ofc
    io := v.getLsbD 2
    en := v.getLsbD 1
    on := v.getLsbD 0 }

/-- IFCTL after a write of `v`: the fields, and `Illegal` re-evaluated (R23, R232, R235). -/
def ifctlWritten (p : Config.Params) (v : Word) (r : Ifctl) : Ifctl :=
  { ifctlFields p v r with illegal := illegalOf p (ifctlFields p v r) }

/-- The write changes EST, CYC, FDT, BM, ER, FCR or OfC and leaves On = 1 (R321, D30). -/
def modeChangeWhileOn (r r' : Ifctl) : Bool :=
  r.on && r'.on &&
    (r.est != r'.est || r.cyc != r'.cyc || r.fdt != r'.fdt || r.bm != r'.bm || r.er != r'.er || r.fcr != r'.fcr || r.ofc != r'.ofc)

/-- Put IFCTL in the state. -/
def withIfctl (r : Ifctl) (s : State) : State :=
  { s with ifctl := r }

/-- The write turns On from 1 to 0 (R233). -/
def stops (r r' : Ifctl) : Bool :=
  r.on && !r'.on

/-- `RegWrite(0x3FC0, v)` (R232 to R235, R321): the fields, the flush of a stop, then In_TraceOn. -/
def writeIfctl (d : Config.Draws) (v : Word) (s : State) : Result State Fault Refusal :=
  if modeChangeWhileOn s.ifctl (ifctlWritten s.params v s.ifctl) then .refused .modeChangeWhileOn
  else if stops s.ifctl (ifctlWritten s.params v s.ifctl) then
    flush (withIfctl (ifctlWritten s.params v s.ifctl) s)
  else .next (reevaluate d (inTraceOn s) (withIfctl (ifctlWritten s.params v s.ifctl) s))

/-- With overflow inhibited, a stop waits until the queue has room for the word it flushes (R210, log 28). -/
def stopHeld (v : Word) (s : State) : Bool :=
  stops s.ifctl (ifctlWritten s.params v s.ifctl) && (ifctlWritten s.params v s.ifctl).ofc &&
    (ifctlWritten s.params v s.ifctl).io && fifoFull s && !s.acc.isEmpty

/-- `RegWrite(0x3F88, v)` (R240); an address outside trace memory is refused (U11). -/
def writeRdp (v : Word) (s : State) : Result State Fault Refusal :=
  if inTraceMemory s.params (v &&& addressMask s.params) then .next { s with rdpAddr := v &&& addressMask s.params }
  else .refused .pointerOutOfRange

/-- `RegWrite(0x3F90, v)` (R241); an address outside trace memory is refused (U11). -/
def writeWrp (v : Word) (s : State) : Result State Fault Refusal :=
  if inTraceMemory s.params (v &&& addressMask s.params) then
    .next { s with wrpAddr := v &&& addressMask s.params, wrpWrap := v.getLsbD 31 }
  else .refused .pointerOutOfRange

/-- The writable bits of a trigger-enable register (R242). -/
def trigWritten (v : Word) : TrigReg :=
  { gate := v.getLsbD 28, brk := v.extractLsb' 0 15 }

/-- An aligned 32-bit write. ITCBTW ignores it (R239), with OfC = 1 too, where U12 refuses accesses to ITCBTW and D14 names only the read (DESIGN
CHOICE, log 53). -/
def writeWord32 (d : Config.Draws) (r : DrsegReg) (v : Word) (s : State) : Result State Fault Refusal :=
  match r with
  | .itcbtwLow => .next s
  | .itcbtwHigh => .next s
  | .itcbrdp => writeRdp v s
  | .itcbwrp => writeWrp v s
  | .ifctl => writeIfctl d v s
  | .itrig => .next { s with itrig := trigWritten v }
  | .dtrig => .next { s with dtrig := trigWritten v }

/-- A write of a register that exists: 32 bits only (R66). -/
def writeRegister (d : Config.Draws) (r : DrsegReg) (width : Width) (v : Word) (s : State) : Result State Fault Refusal :=
  match width with
  | .word => writeWord32 d r v s
  | .byte | .half | .double => .refused .widthNotAdmitted

/-- `RegWrite(offset, v)`. -/
def regWrite (d : Config.Draws) (offset : Nat) (width : Width) (v : BitVec 64) (s : State) : Result State Fault Refusal :=
  match drsegReg offset with
  | none => .refused .unassignedOffset
  | some r =>
    if needsTraceMemory r && !s.params.hasOnchip then .refused .noTraceMemory
    else writeRegister d r width (v.setWidth 32) s

end Sys2Proof.Machine
end

