-- ==== Sys2Proof/Machine/Trace.lean ====
section
/-! DEFINITION. The core tracing logic: what messages a Retire, a Tick or a user write makes (spec/40_normal_trace_messages.md R139 to R143,
spec/41_special_trace_messages.md R160 to R174, spec/44_breakpoint_triggering.md R261 to R268). -/

namespace Sys2Proof.Machine

/-- Put messages on the bus to the ITCB (R118). -/
def offer (ms : List Instr) (s : State) : State :=
  { s with bus := s.bus ++ ms }

/-! ### Normal mode (R139 to R142) -/

/-- `sync_step()`: count one traced instruction, and whether a synchronization is due (R141). -/
def syncStep (s : State) : Bool × State :=
  if s.syncCtr - 1 = 0 then (true, { s with syncCtr := syncPeriod s.ifctl }) else (false, { s with syncCtr := s.syncCtr - 1 })

/-- The message of a dynamic target: any format that fits (R140, D8). -/
def dynamicMessage (d : Config.Draws) (pc lastPc : Word) (ncc : Bool) : Instr :=
  if fits8 (pcDelta pc lastPc) && d.pick8 then .nJ8 (delta8 (pcDelta pc lastPc))
  else if fits16 (pcDelta pc lastPc) && d.pick16 then .nJ16 (delta16 (pcDelta pc lastPc))
  else .nFpc (pcField pc) ncc

/-- The message of an instruction that needs no full PC (R139). A taken branch to the very address of sequential flow, for which U13 allows N.SEQ and
N.BT, is sent as the event classes it: there is no draw here (R133; DESIGN CHOICE, log 57). -/
def flowMessage (d : Config.Draws) (i : Retired) (lastPc : Word) : Instr :=
  match i.flow with
  | .seq => .nSeq
  | .takenStatic => .nBt
  | .dynamic => dynamicMessage d i.pc lastPc i.ncc

/-- A full PC is due for the instruction (R137): at a start, after a discontinuity, at a change of NCC, at a synchronization. -/
def fullPcDue (syncDue : Bool) (i : Retired) (s : State) : Bool :=
  s.discont || s.needFullPc || i.ncc != s.lastNcc || syncDue

/-- The message that stands for the instruction (R139). -/
def normalMessage (d : Config.Draws) (syncDue : Bool) (i : Retired) (s : State) : Instr :=
  if fullPcDue syncDue i s then .nFpc (pcField i.pc) i.ncc else flowMessage d i s.lastPc

/-- N.RES before the N.FPC of a start that is no discontinuity: a draw (D26). After a discontinuity the bus adds it (`busNext`). -/
def startResume (d : Config.Draws) (s : State) : List Instr :=
  if s.needFullPc && !s.discont && d.resume then [.nRes] else []

/-- Trace one instruction in normal mode (R139). -/
def traceNormal (d : Config.Draws) (i : Retired) (s : State) : State :=
  offer (startResume d s ++ [normalMessage d (syncStep s).1 i s])
    { (syncStep s).2 with curPc := i.pc, curNcc := i.ncc }

/-! ### Special mode (R162, R165, R167 to R174) -/

/-- Set the DeltaCycle operand of a message that has one. -/
def setDelta (dc : Option (BitVec 10)) (i : Instr) : Instr :=
  match i with
  | .sUtm data utm2 _ => .sUtm data utm2 dc
  | .sBm id ib pc ncc _ => .sBm id ib pc ncc dc
  | .sFd id load full addr field _ => .sFd id load full addr field dc
  | .sFce fc ex r pc ncc _ => .sFce fc ex r pc ncc dc
  | .nSeq => .nSeq
  | .nBt => .nBt
  | .nJ8 d => .nJ8 d
  | .nJ16 d => .nJ16 d
  | .nFpc pc ncc => .nFpc pc ncc
  | .nRes => .nRes
  | .sDcr => .sDcr
  | .sRsv => .sRsv
  | .sRes => .sRes

/-- The DeltaCycle a message generated now carries (R162): the count, 0 when S.RES goes before it (R176), none without CYC (R105). -/
def currentDelta (s : State) : Option (BitVec 10) :=
  if s.ifctl.cyc then some (if s.discont then 0#10 else s.dcyc) else none

/-- The DeltaCycle of a second message in the same cycle (R162, R174). -/
def zeroDelta (s : State) : Option (BitVec 10) :=
  if s.ifctl.cyc then some 0#10 else none

/-- The first message carries the elapsed count and the others 0 (R174, D21). -/
def stampDeltas (s : State) (ms : List Instr) : List Instr :=
  match ms with
  | [] => []
  | m :: rest => setDelta (currentDelta s) m :: rest.map (setDelta (zeroDelta s))

/-- Generate event messages: stamp them, clear the count, offer them (R162). -/
def generate (ms : List Instr) (s : State) : State :=
  if ms.isEmpty then s else offer (stampDeltas s ms) { s with dcyc := 0#10 }

/-- The S.BM message of an instruction, if a breakpoint matched (R167, R168). -/
def breakpointMessages (d : Config.Draws) (i : Retired) (s : State) : List Instr :=
  if s.ifctl.bm && (instrTriggers s i != 0#15 || dataTriggers s i != 0#15) then
    [.sBm (breakpointId (instrTriggers s i) (dataTriggers s i))
      (instrBreakBit (instrTriggers s i) (dataTriggers s i) d.ibBit) (pcField i.pc) i.ncc none]
  else []

/-- The S.FD message of an instruction, if a data breakpoint matched (R169, R170). -/
def dataMessages (i : Retired) (s : State) : List Instr :=
  match i.mem with
  | none => []
  | some m =>
    if s.ifctl.fdt && dataTriggers s i != 0#15 then
      [.sFd (breakpointId 0#15 (dataTriggers s i)) m.load (fullWord m.be) (addrField m.addr) (dataField m.be m.data) none]
    else []

/-- FC, Ex and R of an instruction (R171). -/
def fceCall (i : Retired) (s : State) : Bool := s.ifctl.fcr && i.call
def fceExc (i : Retired) (s : State) : Bool := s.ifctl.er && i.exc
def fceRet (i : Retired) (s : State) : Bool := (s.ifctl.fcr && i.ret) || (s.ifctl.er && i.eret)

/-- The S.FCE message of an instruction, if a call, return or exception event is enabled (R171, D20). -/
def flowEventMessages (i : Retired) (s : State) : List Instr :=
  if fceCall i s || fceExc i s || fceRet i s then
    [.sFce (fceCall i s) (fceExc i s) (fceRet i s) (pcField i.pc) i.ncc none]
  else []

/-- A permutation of at most three messages, by a draw (R174, D21). -/
def permute (k : Nat) (ms : List Instr) : List Instr :=
  match ms with
  | [a, b] => if k % 2 = 0 then [a, b] else [b, a]
  | [a, b, c] =>
    match k % 6 with
    | 0 => [a, b, c]
    | 1 => [a, c, b]
    | 2 => [b, a, c]
    | 3 => [b, c, a]
    | 4 => [c, a, b]
    | _ => [c, b, a]
  | ms => ms

/-- The records of one instruction in special mode, in the order drawn (R174). -/
def specialMessages (d : Config.Draws) (i : Retired) (s : State) : List Instr :=
  permute d.order (breakpointMessages d i s ++ dataMessages i s ++ flowEventMessages i s)

/-- A breakpoint with TE and BE set, of either kind, matched while BM or FDT is set (R168, R170, R264, U6). R264 does not say whether a match behind a closed gate
counts; only gated-in matches do here, because a closed gate hides its breakpoints from tracing (DESIGN CHOICE, log 31). -/
def breakEnableMatch (i : Retired) (s : State) : Bool :=
  (s.ifctl.bm || s.ifctl.fdt) &&
    (instrTriggers s i &&& i.ibpBe != 0#15 || dataTriggers s i &&& dataBreakEnables i != 0#15)

/-- Filtered data of an access wider than 32 bits is asked for (R169, N15). -/
def wideMatch (i : Retired) (s : State) : Bool :=
  match i.mem with
  | none => false
  | some m => s.ifctl.fdt && m.wide && dataTriggers s i != 0#15

/-- Trace one instruction in special mode (R160, R167 to R174). -/
def traceSpecial (d : Config.Draws) (i : Retired) (s : State) : Result State Fault Refusal :=
  if breakEnableMatch i s then .refused .breakEnableSet
  else if wideMatch i s then .refused .wideFilteredData
  else .next (generate (specialMessages d i s) s)

/-! ### The unpredictable stream (R161, R289, D19) -/

/-- One arbitrary message of 1 to 57 bits, where the queue needs no room for it that a stall would have to wait for. -/
def emitGarbage (m : List Bool) (s : State) : Result State Fault Refusal :=
  if m.isEmpty then .next s
  else if s.ifctl.ofc && s.ifctl.io && fifoFull s && completesWord (m.take 57) s then .next s
  else emit (m.take 57) s

/-- An arbitrary stream, by a draw (log 30). -/
def garbage (ms : List (List Bool)) (s : State) : Result State Fault Refusal :=
  match ms with
  | [] => .next s
  | m :: rest => andThen (emitGarbage m s) (garbage rest)

/-! ### Triggers in normal mode (R262, R266) -/

/-- The values the triggers of a set give `En` (R262). -/
def triggerValues (set brk : BitVec 15) : List Bool :=
  (members set).map brk.getLsbD

/-- The value of `En` after triggers: theirs if they agree, the draw if they do not (R266, D33). -/
def resolveTriggers (vals : List Bool) (last : Bool) : Option Bool :=
  if vals.isEmpty then none
  else if vals.all id then some true
  else if vals.all not then some false
  else some last

/-- What the triggers that act before their instruction do to `En` (D31). -/
def triggerBefore (d : Config.Draws) (i : Retired) (s : State) : Option Bool :=
  resolveTriggers (triggerValues (instrTriggers s i &&& ~~~d.afterI) s.itrig.brk ++
    triggerValues (dataTriggers s i &&& ~~~d.afterD) s.dtrig.brk) d.lastBefore

/-- What the triggers that act after their instruction do to `En` (D31). -/
def triggerAfter (d : Config.Draws) (i : Retired) (s : State) : Option Bool :=
  resolveTriggers (triggerValues (instrTriggers s i &&& d.afterI) s.itrig.brk ++
    triggerValues (dataTriggers s i &&& d.afterD) s.dtrig.brk) d.lastAfter

/-- Apply a trigger value, if there is one. -/
def applyTrigger? (d : Config.Draws) (v : Option Bool) (s : State) : State :=
  match v with
  | none => s
  | some b => applyTrigger d b s

/-- Apply the trigger latched behind an instruction (D31). `En` is compared with its value then, so that conflicting triggers drawn to opposite sides
of the instruction switch it twice, and a discontinuity stands though `En` ends as it began (R262, R266; DESIGN CHOICE, log 17). -/
def applyLatched (d : Config.Draws) (b : Bool) (s : State) : State :=
  applyTrigger d b { s with latchedEn := none }

/-! ### The events of the core (R13) -/

/-- The instruction offered to normal mode, after the triggers that act before it (R130, R262). -/
def offerNormal (d : Config.Draws) (i : Retired) (s : State) : Result State Fault Refusal :=
  if inTraceOn s then
    if unpredictable s.ifctl then garbage d.garbage s else .next (traceNormal d i s)
  else .next s

/-- The instruction offered to special mode (R160). With `Illegal` set the stream is arbitrary (U2, R289), also where a breakpoint with TE and BE set
matches, which U6 would refuse: the spec does not say which prevails (DESIGN CHOICE, logs 30 and 31). -/
def offerSpecial (d : Config.Draws) (i : Retired) (s : State) : Result State Fault Refusal :=
  if inTraceOn s then
    if unpredictable s.ifctl then garbage d.garbage s else traceSpecial d i s
  else .next s

/-- `Retire(i)`. Nothing happens with On = 0 or in DebugMode (R130, R261, R287). -/
def retire (d : Config.Draws) (i : Retired) (s : State) : Result State Fault Refusal :=
  if !s.ifctl.on || s.debugMode then .next s
  else if s.ifctl.est then offerSpecial d i s
  else offerNormal d i { applyTrigger? d (triggerBefore d i s) s with latchedEn := triggerAfter d i s }

/-- Store a user register, all REG_WIDTH bits (R245). -/
def storeUser (second : Bool) (v : BitVec 64) (s : State) : State :=
  if second then { s with utd2 := if s.params.regWidth64 then v else (v.setWidth 32).setWidth 64 }
  else { s with utd1 := if s.params.regWidth64 then v else (v.setWidth 32).setWidth 64 }

/-- `Cp0Write` (R165, R245): the register is updated; in special mode while tracing a user message is made. -/
def cp0Write (d : Config.Draws) (second : Bool) (v : BitVec 64) (s : State) : Result State Fault Refusal :=
  if inTraceOn s && unpredictable s.ifctl then garbage d.garbage (storeUser second v s)
  else if inTraceOn s && s.ifctl.est then
    .next (generate [.sUtm (v.setWidth 32) second none] (storeUser second v s))
  else .next (storeUser second v s)

/-- One counted cycle (R162): at 1023 a rollover message is made. -/
def countCycle (s : State) : State :=
  if s.dcyc + 1#10 = 1023#10 then offer [.sDcr] { s with dcyc := 0#10 } else { s with dcyc := s.dcyc + 1#10 }

/-- `Tick` (R132, R162, R163). -/
def tick (d : Config.Draws) (clockRunning : Bool) (s : State) : Result State Fault Refusal :=
  if !clockRunning || !inTraceOn s then .next s
  else if unpredictable s.ifctl then garbage d.garbage s
  else if s.ifctl.est && s.ifctl.cyc then .next (countCycle s)
  else .next s

/-- `DebugEnter` (R287): In_TraceOn falls; no message, no flush. -/
def debugEnter (s : State) : State :=
  { s with debugMode := true }

/-- `DebugLeave` (R287). -/
def debugLeave (d : Config.Draws) (s : State) : State :=
  reevaluate d (inTraceOn s) { s with debugMode := false }

/-! ### The bus (R118, R138, R176) -/

/-- The resumption message of the mode. -/
def resumeMessage (r : Ifctl) : Instr :=
  if r.est then .sRes else .nRes

/-- The message is a resumption message. -/
def isResume (i : Instr) : Bool :=
  i == .nRes || i == .sRes

/-- The next message the ITCB takes and the state with it off the bus: after a discontinuity the resumption message goes first (R138, R176,
log 11). -/
def busHead (i : Instr) (rest : List Instr) (s : State) : Instr × State :=
  if s.discont && inTraceOn s && !isResume i then (resumeMessage s.ifctl, s) else (i, { s with bus := rest })

/-- With overflow inhibited, a message that would complete a word waits until the queue has room (R210, log 28). -/
def sendHeld (i : Instr) (s : State) : Bool :=
  s.ifctl.ofc && s.ifctl.io && fifoFull s && inTraceOn s && completesWord (encode i) s

/-- The message the ITCB takes in this step, if any. -/
def busNext (s : State) : Option (Instr × State) :=
  match s.bus with
  | [] => none
  | i :: rest => if sendHeld (busHead i rest s).1 s then none else some (busHead i rest s)

end Sys2Proof.Machine
end

