-- ==== Sys2Proof/Machine/Events.lean ====
section
/-! DEFINITION. The stimulus events: which one is taken next (spec/42_itcb_trace_words.md R210) and what it does (spec/00_scope.md R13). -/

namespace Sys2Proof.Machine

/-- The event does not come from the core's instruction stream, so a stall does not hold it (R210). -/
def freeRunning (e : Event) : Bool :=
  match e with
  | .tick _ | .pibTake | .idleSlot | .probeAttach _ | .reset | .capture _ _ _ | .captureProbe _ _ => true
  | .retire _ | .cp0Write _ _ _ | .cp0Read _ _ | .config3Read | .debugEnter | .debugLeave | .regRead _ _ | .regWrite _ _ _ => false

/-- An event of the core that the unit holds: any while its messages wait on the bus, Retire and Cp0Write while In_Stall is on, a stop
whose flush would find no room (R210, log 28). -/
def eventHeld (s : State) (e : Event) : Bool :=
  match e with
  | .retire _ | .cp0Write _ _ _ => !s.bus.isEmpty || inStall s
  | .regWrite offset width v =>
    !s.bus.isEmpty || (offset == 0x3FC0 && width == .word && stopHeld (v.setWidth 32) s)
  | .cp0Read _ _ | .config3Read | .debugEnter | .debugLeave | .regRead _ _ => !s.bus.isEmpty
  | .tick _ | .pibTake | .idleSlot | .probeAttach _ | .reset | .capture _ _ _ | .captureProbe _ _ => false

/-- The first enabled event of the list and the list without it. Behind a held event of the core no later event of the core is taken. -/
def takeEvent (s : State) (held : Bool) (es : List Event) : Option (Event × List Event) :=
  match es with
  | [] => none
  | e :: rest =>
    if freeRunning e || (!held && !eventHeld s e) then some (e, rest)
    else
      match takeEvent s true rest with
      | none => none
      | some (e', rest') => some (e', e :: rest')

/-- The reset event (R313): the unit is as after reset, the trace memory unknown again, any partial word discarded; the agents outside
and their inputs go on (log 43). -/
def resetEvent (s : State) : State :=
  { State.resetOf s.params with
    debugMode := s.debugMode, probeConnected := s.probeConnected, readData := s.readData, events := s.events
    receiver := s.receiver, reader := s.reader, portCycles := s.portCycles
    drawIndex := s.drawIndex, resetCount := s.resetCount + 1 }

/-- What an event does, with the draws of its step. -/
def handleEvent (d : Config.Draws) (e : Event) (s : State) : Result State Fault Refusal :=
  match e with
  | .tick clockRunning => tick d clockRunning s
  | .retire i => retire d i s
  | .cp0Write register select v => cp0Access register select fun second => cp0Write d second v s
  | .cp0Read register select => cp0Access register select fun second => cp0Read second s
  | .config3Read => config3Read s
  | .debugEnter => .next (debugEnter s)
  | .debugLeave => .next (debugLeave d s)
  | .regRead offset width => regRead offset width s
  | .regWrite offset width v => regWrite d offset width v s
  | .pibTake => .next (pibTake s)
  | .idleSlot => .next (idleSlot s)
  | .probeAttach connected => .next (probeAttach connected s)
  | .reset => .next (resetEvent s)
  | .capture est cyc words => .next (setReader (startReading est cyc (wholeCapture words)) s)
  | .captureProbe est cyc => .next (setReader (startReading est cyc s.receiver.words) s)

/-- Count one draw taken. -/
def tookDraw (s : State) : State :=
  { s with drawIndex := s.drawIndex + 1 }

/-- Take the next enabled event; with none the machine waits (log 3). -/
def eventStep (d : Config.Draws) (s : State) : Result State Fault Refusal :=
  match takeEvent s false s.events with
  | none => .next s
  | some (e, rest) => handleEvent d e (tookDraw { s with events := rest })

end Sys2Proof.Machine
end

