-- ==== Sys2Proof/Machine/Step.lean ====
section
/-! DEFINITION. One step of the machine, and the placing of one instruction where the step fetches (logs 3 and 4). -/

namespace Sys2Proof.Machine

/-- One step of an active reader: fetch, decode and execute one message, or move on to the next word. -/
def readerStep (s : State) : Host.Outcome State Fault Refusal :=
  match readerFetch s.reader with
  | .message i r => exec i (setReader r s)
  | .moved r => .next (setReader r s)

/-- One step of the unit with the draws `d`: the ITCB takes a message from the bus, else a latched trigger acts, else an event is taken. -/
def unitStep (d : Config.Draws) (s : State) : Host.Outcome State Fault Refusal :=
  match busNext s with
  | some (i, s') => exec i s'
  | none =>
    match s.bus, s.latchedEn with
    | [], some b => .next (applyLatched d b (tookDraw s))
    | _, _ => eventStep d s

/-- One step with the draws `d`: an active reader first, then a word in transmission, then the unit. -/
def stepWith (d : Config.Draws) (s : State) : Host.Outcome State Fault Refusal :=
  if s.reader.active then readerStep s
  else
    match s.tx with
    | some t => .next (transfer t s)
    | none => unitStep d s

/-- One step of the machine. -/
def step (s : State) : Host.Outcome State Fault Refusal :=
  stepWith (Config.draws s.drawIndex) s

/-- The state with one instruction before the reader, in the mode the decoder reads it in (log 3). A word no mode reads is placed in the
mode of reset. -/
def State.withFetchWord (s : State) (nbits w : Nat) : State :=
  match tableMode nbits w with
  | none => setReader (readingBits false false (toBits longestMessage w) s.reader) s
  | some m => setReader (readingBits m.1 m.2 (toBits longestMessage w) s.reader) s

end Sys2Proof.Machine
end

