-- ==== Sys2Proof/Machine/Procedures.lean ====
section
/-! DEFINITION. The software procedures of the source, as lists of stimulus events with their checks, and the read-out as one operation
(spec/43_register_access.md R247, R248; spec/70_reset_and_hazards.md R314). -/

namespace Sys2Proof.Machine

/-- A 32-bit register write. -/
def writeEvent (offset : Nat) (v : Word) : Event :=
  .regWrite offset .word (v.setWidth 64)

/-- A 32-bit register read. -/
def readEvent (offset : Nat) : Event :=
  .regRead offset .word

/-! ### Starting (R247, R314) -/

/-- The read of Config3 (R247 step 1). -/
def checkScheme : List Event :=
  [.config3Read]

/-- The design has the scheme: Config3.ITL in the value read (R2, R247 step 1). -/
def hasScheme (config3 : Word) : Bool :=
  config3.getLsbD 8

/-- A run with this setting of IFCTL is an on-chip run (R33, R314). -/
def onChipRun (p : Config.Params) (setting : Word) : Bool :=
  !(if p.ofcSettable then setting.getLsbD 3 else p.ofcPreset)

/-- ITCBWRP set to 0, for an on-chip and for an off-chip run (R247 step 3, R314 (2)); a design without on-chip memory has no such register (R61;
log 54). -/
def clearWritePointer (p : Config.Params) : List Event :=
  if p.hasOnchip then [writeEvent 0x3F90 0#32] else []

/-- A probe attached for an off-chip run (R314 (4)); its place before step 5 of R247 is the model's (DESIGN CHOICE, log 54). -/
def attachProbe (p : Config.Params) (setting : Word) : List Event :=
  if onChipRun p setting then [] else [.probeAttach true]

/-- The optional writes of the trigger-enable registers (R247 step 4). -/
def programTriggers (triggers : Option (Word × Word)) : List Event :=
  match triggers with
  | none => []
  | some (i, d) => [writeEvent 0x3FD0 i, writeEvent 0x3FD8 d]

/-- Steps 2 to 6 of R247 and the probe of R314 (4), for a setting of IFCTL whose On and En bits are 0: the last read returns what step 6 checks. Nothing if the check of
step 1 fails. -/
def setUpTrace (p : Config.Params) (config3 setting : Word) (triggers : Option (Word × Word)) : List Event :=
  if hasScheme config3 then
    writeEvent 0x3FC0 0#32 ::
      (clearWritePointer p ++ programTriggers triggers ++ attachProbe p setting ++ [writeEvent 0x3FC0 setting, readEvent 0x3FC0])
  else []

/-- The check of R247 step 6: `Illegal` is 0 and the mode bits 14:9 read back as written. -/
def settingAccepted (setting readBack : Word) : Bool :=
  !readBack.getLsbD 31 && readBack.extractLsb' 9 6 == setting.extractLsb' 9 6

/-- Step 7 of R247, with the initial En; nothing if the check of step 6 fails. -/
def startTrace (setting readBack : Word) (en : Bool) : List Event :=
  if settingAccepted setting readBack then [writeEvent 0x3FC0 (setting ||| (BitVec.ofBool en ++ 1#1).setWidth 32)] else []

/-! ### Stopping and reading out (R248) -/

/-- Stopping a trace: IFCTL with On = 0, then ITCBWRP is read (R248 steps 1 and 2). -/
def stopTrace (current : Word) : List Event :=
  [writeEvent 0x3FC0 (current &&& ~~~1#32), readEvent 0x3F90]

/-- The trace words to read out, from the value read from ITCBWRP (R248 step 3). -/
def readOutCount (p : Config.Params) (wrp : Word) : Nat :=
  if wrp.getLsbD 31 then p.tmemWords else (wrp &&& addressMask p).toNat / 8

/-- Where the read-out begins (R248 step 3). -/
def readOutStart (p : Config.Params) (wrp : Word) : Word :=
  if wrp.getLsbD 31 then wrp &&& addressMask p else 0#32

/-- Read `n` trace words, upper half first (R237, R248 step 4). -/
def readWords (n : Nat) : List Event :=
  match n with
  | 0 => []
  | k + 1 => readEvent 0x3F84 :: readEvent 0x3F80 :: readWords k

/-- Reading out a stopped on-chip trace (R248 steps 3 and 4). -/
def readOut (p : Config.Params) (wrp : Word) : List Event :=
  writeEvent 0x3F88 (readOutStart p wrp) :: readWords (readOutCount p wrp)

/-- `TW <- {hi, lo}` (R248 step 4). -/
def joinHalves (hi lo : BitVec 64) : TraceWord :=
  hi.setWidth 32 ++ lo.setWidth 32

/-- Read one trace word in two halves, the upper one first (R237, R248 step 4). -/
def readPair (s : State) : Option (TraceWord × State) :=
  match nextState (regRead 0x3F84 .word s) with
  | none => none
  | some s1 =>
    match nextState (regRead 0x3F80 .word s1) with
    | none => none
    | some s2 => some (joinHalves s1.readData s2.readData, s2)

/-- Read `n` trace words and gather them, the first read first (R248 step 4). -/
def gatherWords (n : Nat) (s : State) : Option (List TraceWord × State) :=
  match n with
  | 0 => some ([], s)
  | k + 1 =>
    match readPair s with
    | none => none
    | some (w, s1) =>
      match gatherWords k s1 with
      | none => none
      | some (ws, s2) => some (w :: ws, s2)

/-- The read-out of a stopped on-chip trace (R248 steps 2 to 4): the trace words, oldest first, and the state after it. -/
def readOutTrace (d : Config.Draws) (s : State) : Option (List TraceWord × State) :=
  match nextState (regRead 0x3F90 .word s) with
  | none => none
  | some s1 =>
    match nextState (regWrite d 0x3F88 .word ((readOutStart s.params (s1.readData.setWidth 32)).setWidth 64) s1) with
    | none => none
    | some s2 => gatherWords (readOutCount s.params (s1.readData.setWidth 32)) s2

end Sys2Proof.Machine
end

