-- ==== Sys2Proof/Safety.lean ====
section
/-! DEFINITION. What claims call a good state and a safe outcome. -/

namespace Sys2Proof.Machine

/-- The outcome is no fault. -/
def notFault (o : Result State Fault Refusal) : Prop :=
  ∀ r, o ≠ .fault r

/-! ### Messages on the unit's side -/

/-- The messages that stand for the instruction being traced (R133 to R137). -/
def isTraced (i : Instr) : Bool :=
  match i with
  | .nSeq | .nBt | .nJ8 _ | .nJ16 _ | .nFpc _ _ => true
  | .nRes | .sDcr | .sUtm _ _ _ | .sRsv | .sBm _ _ _ _ _ | .sFd _ _ _ _ _ _ | .sFce _ _ _ _ _ _ | .sRes => false

/-- The special-mode messages the unit generates, but S.RES: their emission writes nothing besides the accumulator (R164 to R171). -/
def isEvent (i : Instr) : Bool :=
  match i with
  | .sDcr | .sUtm _ _ _ | .sBm _ _ _ _ _ | .sFd _ _ _ _ _ _ | .sFce _ _ _ _ _ _ => true
  | .nSeq | .nBt | .nJ8 _ | .nJ16 _ | .nFpc _ _ | .nRes | .sRsv | .sRes => false

/-- The state in which a message is emitted: what its rule writes besides the accumulator. -/
def beforeEmit (i : Instr) (s : State) : State :=
  match i with
  | .nSeq | .nBt | .nJ8 _ | .nJ16 _ | .nFpc _ _ => noteTraced s
  | .nRes => noteResumed s
  | .sRes => noteResumedSpecial s
  | .sDcr | .sUtm _ _ _ | .sRsv | .sBm _ _ _ _ _ | .sFd _ _ _ _ _ _ | .sFce _ _ _ _ _ _ => s

/-- The trace-memory address a message on the unit's side stores a word to, if it stores one. -/
def storesAt (i : Instr) (s : State) : Option Nat :=
  if inTraceOn s then emitStoresAt (encode i) s else none

/-- The unit takes messages one after the other. -/
def sendAll (ms : List Instr) (s : State) : Result State Fault Refusal :=
  match ms with
  | [] => .next s
  | i :: rest => andThen (exec i s) (sendAll rest)

/-! ### Runs of events and of a reader -/

/-- Events one after the other, with the same draws. -/
def handleAll (d : Config.Draws) (es : List Event) (s : State) : Result State Fault Refusal :=
  match es with
  | [] => .next s
  | e :: rest => andThen (handleEvent d e s) (handleAll d rest)

/-- The message a reader decodes in its next step, if it decodes one. -/
def fetched (r : Reader) : List Instr :=
  match readerFetch r with
  | .message i _ => [i]
  | .moved _ => []

/-- The messages decoded in at most `fuel` steps of an active reader. -/
def readAll (fuel : Nat) (s : State) : List Instr :=
  match fuel with
  | 0 => []
  | k + 1 =>
    if s.reader.active then
      fetched s.reader ++ (match nextState (step s) with
        | none => []
        | some t => readAll k t)
    else []

/-! ### The invariant -/

/-- A pointer register points at a trace word (R38, R39, R62). -/
def PointerOk (p : Config.Params) (a : Word) : Prop :=
  a.toNat % 8 = 0 ∧ a.toNat < 8 * p.tmemWords

/-- The accumulator between steps (R46, R202, R204): fewer than 58 bits; with no message begun in the word at most 56 carried bits, with one
begun it begins at 0 to 56 and below the end. -/
def AccOk (acc : List Bool) (firstStart : Option Nat) : Prop :=
  acc.length < 58 ∧
    match firstStart with
    | none => acc.length ≤ 56
    | some k => k ≤ 56 ∧ k < acc.length

/-- IFCTL is one its implementation can hold: bits not implemented are 0, OfC names a destination that exists, `Illegal` is R23's function. -/
def IfctlOk (p : Config.Params) (r : Ifctl) : Prop :=
  (p.implCyc = false → r.cyc = false) ∧ (p.implFdt = false → r.fdt = false) ∧ (p.implBm = false → r.bm = false) ∧
  (p.implEr = false → r.er = false) ∧ (p.implFcr = false → r.fcr = false) ∧ (p.implEst = false → r.est = false) ∧
  (r.ofc = true → p.hasPib = true) ∧ (r.ofc = false → p.hasOnchip = true) ∧
  r.illegal = illegalOf p r

/-- A trace word whose first nibble is not zero, so that a probe sees it begin (R114, R213). -/
def Framed (w : TraceWord) : Prop :=
  w.extractLsb' 0 4 ≠ 0#4

/-- The invariant of the machine. -/
structure GoodState (s : State) : Prop where
  /-- The parameters meet R10. -/
  params : s.params.wf = true
  /-- Trace memory has its canonical form and lies in its range (R62). -/
  memory : Memory.wf s.tmem = true
  range : ∀ c ∈ s.tmem, c.1 < 8 * s.params.tmemWords
  /-- Both pointers point at trace words (R38, R39). -/
  readPointer : PointerOk s.params s.rdpAddr
  writePointer : PointerOk s.params s.wrpAddr
  /-- IFCTL is legal for the implementation (R22 to R36). -/
  ifctl : IfctlOk s.params s.ifctl
  /-- The accumulator is short, and empty while On = 0 (R46, R204). -/
  acc : AccOk s.acc s.firstStart
  off : s.ifctl.on = false → s.acc = []
  /-- The queue is within its depth and holds framed words (R51, R213). -/
  fifo : s.fifo.length ≤ s.params.fifoWords
  framed : ∀ w ∈ s.fifo, Framed w
  /-- The counters are in range (R141, R162). -/
  sync : s.syncCtr ≤ 2 ^ 23
  cycles : s.dcyc ≠ 1023#10
  /-- On a 32-bit core the user registers have 32 bits (R42). -/
  user : s.params.regWidth64 = false → s.utd1.toNat < 2 ^ 32 ∧ s.utd2.toNat < 2 ^ 32
  /-- The probe has collected fewer than sixteen nibbles of the word begun (R216). -/
  receiving : s.receiver.nibbles.length < 16
  /-- TR_DATA carries the word in transmission, and zero between words (R115, R213). -/
  port : s.trData = portNibble s.tx
  /-- Without TR_PROBE_N the probe counts as connected (R215). -/
  probe : s.params.hasTrProbeN = false → s.probeConnected = true

end Sys2Proof.Machine
end

