-- ==== Sys2Proof/Certificates/Slice0/Obligations.lean ====
section
/-! DEFINITION. The statements about the trace unit, for the provers. -/

open Sys2Proof Sys2Proof.Machine

/-! ### Encoding -/

/-- Decoding an encoded message of the mode gives it back, with whatever follows it (R92 to R105, R110). -/
def Obligations.DecodeInvertsEncode : Prop :=
  ∀ (est cyc : Bool) (i : Instr) (rest : List Bool), i.fits est cyc = true →
    decode est cyc (encode i ++ rest) = .message i rest

/-- Whatever decodes is a message of the mode, and encoding it gives the bits back: no bit is dropped and no word has two readings. The code
sets are complete: 57 bits from a boundary always hold a message (R90, R109). -/
def Obligations.EncodeInvertsDecode : Prop :=
  (∀ (est cyc : Bool) (bits rest : List Bool) (i : Instr), decode est cyc bits = .message i rest →
    i.fits est cyc = true ∧ encode i ++ rest = bits) ∧
  (∀ (est cyc : Bool) (bits : List Bool), 57 ≤ bits.length → ∃ i rest, decode est cyc bits = .message i rest)

/-- A stream of encoded messages, none of them S.RSV, whose end no reader finds (R100), decodes to those messages, up to the bits behind them
(R109, R110). -/
def Obligations.StreamDecodesToMessages : Prop :=
  ∀ (est cyc : Bool) (ms : List Instr) (tail : List Bool), (∀ i ∈ ms, i ≠ .sRsv ∧ i.fits est cyc = true) →
    decodeStream est cyc ms.length (ms.flatMap encode ++ tail) = (ms, tail)

/-- The bit positions of the normal-mode formats and of the special-mode formats without fields (R92 to R98, R104). -/
def Obligations.NormalBitLayout : Prop :=
  (∀ d : BitVec 8, (encode (.nJ8 d)).length = 12 ∧ messageNumber (.nJ8 d) = 0x3 + 2 ^ 4 * d.toNat) ∧
  (∀ d : BitVec 16, (encode (.nJ16 d)).length = 20 ∧ messageNumber (.nJ16 d) = 0xB + 2 ^ 4 * d.toNat) ∧
  (∀ (pc : BitVec 31) (ncc : Bool), (encode (.nFpc pc ncc)).length = 36 ∧
    messageNumber (.nFpc pc ncc) = 0x7 + 2 ^ 4 * pc.toNat + 2 ^ 35 * ncc.toNat) ∧
  (encode .nSeq).length = 1 ∧ messageNumber .nSeq = 0 ∧ (encode .nBt).length = 2 ∧ messageNumber .nBt = 1 ∧
  (encode .nRes).length = 4 ∧ messageNumber .nRes = 0xF ∧ (encode .sDcr).length = 2 ∧ messageNumber .sDcr = 0 ∧
  (encode .sRes).length = 4 ∧ messageNumber .sRes = 0xF

/-- The bit positions of the special-mode formats with fields, without and with a DeltaCycle (R99, R101 to R103, R105). -/
def Obligations.SpecialBitLayout : Prop :=
  (∀ (data : BitVec 32) (utm2 : Bool) (dc : Option (BitVec 10)),
    (encode (.sUtm data utm2 dc)).length = (if dc.isSome then 46 else 36) ∧
    messageNumber (.sUtm data utm2 dc) =
      0x2 + 2 ^ 3 * data.toNat + 2 ^ 35 * utm2.toNat + 2 ^ 36 * (dc.getD 0#10).toNat) ∧
  (∀ (id : BitVec 4) (ib : Bool) (pc : BitVec 31) (ncc : Bool) (dc : Option (BitVec 10)),
    (encode (.sBm id ib pc ncc dc)).length = (if dc.isSome then 49 else 39) ∧
    messageNumber (.sBm id ib pc ncc dc) =
      0x1 + 2 ^ 2 * id.toNat + 2 ^ 6 * ib.toNat + 2 ^ 7 * pc.toNat + 2 ^ 38 * ncc.toNat + 2 ^ 39 * (dc.getD 0#10).toNat) ∧
  (∀ (id : BitVec 4) (load full : Bool) (addr : BitVec 6) (field : BitVec 32) (dc : Option (BitVec 10)),
    (encode (.sFd id load full addr field dc)).length = (if dc.isSome then 57 else 47) ∧
    messageNumber (.sFd id load full addr field dc) =
      0x3 + 2 ^ 3 * id.toNat + 2 ^ 7 * load.toNat + 2 ^ 8 * full.toNat + 2 ^ 9 * addr.toNat + 2 ^ 15 * field.toNat +
        2 ^ 47 * (dc.getD 0#10).toNat) ∧
  (∀ (fc ex r : Bool) (pc : BitVec 31) (ncc : Bool) (dc : Option (BitVec 10)),
    (encode (.sFce fc ex r pc ncc dc)).length = (if dc.isSome then 49 else 39) ∧
    messageNumber (.sFce fc ex r pc ncc dc) =
      0x7 + 2 ^ 4 * fc.toNat + 2 ^ 5 * ex.toNat + 2 ^ 6 * r.toNat + 2 ^ 7 * pc.toNat + 2 ^ 38 * ncc.toNat +
        2 ^ 39 * (dc.getD 0#10).toNat)

/-- A sanity statement: a few messages written out in the spec's vectors (spec/95_test_vectors.md 2.1 and 2.2) decode to what they stand
for. -/
def Obligations.SpecVectorsDecode : Prop :=
  decode false false (toBits 12 0xF03) = .message (.nJ8 0xF0#8) [] ∧
  decode false false (toBits 20 0x0812B) = .message (.nJ16 0x0812#16) [] ∧
  decode false false (toBits 36 0xCFE002007) = .message (.nFpc 0x4FE00200#31 true) [] ∧
  decode true true (toBits 46 0xCE57F7806A) = .message (.sUtm 0xCAFEF00D#32 true (some 12#10)) [] ∧
  decode true false (toBits 39 0x6000048D49) = .message (.sBm 2#4 true 0x4000091A#31 true none) [] ∧
  decode true false (toBits 47 0x6F56DF77D59B) = .message (.sFd 3#4 true true 0x2A#6 0xDEADBEEF#32 none) [] ∧
  decode true false (toBits 39 0x6000010017) = .message (.sFce true false false 0x40000200#31 true none) []

/-- A trace word holds its 58 data bits in 63:6, earliest lowest, and its tag in 5:0; every tag the unit can form gives its starting bit back
and has a first nibble that is not zero (R112 to R114, D16, log 25). -/
def Obligations.TraceWordHoldsDataAndTag : Prop :=
  (∀ (data : List Bool) (tag : BitVec 6), data.length = 58 →
    wordData (packWord data tag) = data ∧ wordTag (packWord data tag) = tag) ∧
  (∀ s : Nat, s ≤ 56 → decTag (encTag s) = some s ∧ (encTag s).extractLsb' 0 4 ≠ 0#4)

/-! ### Steps -/

/-- A step of an active reader runs the message it decodes at its boundary (R109, R144; the model's log 4). -/
def Obligations.StepRunsDecodedMessage : Prop :=
  ∀ (s : State) (i : Instr) (rest : List Bool), s.reader.active = true → s.reader.aligned = true → atFill s.reader = false →
    decode s.reader.est s.reader.cyc s.reader.bits = .message i rest →
    step s = exec i { s with reader := { s.reader with bits := rest } }

/-- An instruction placed with withFetchWord is the one the next step runs, whatever the state (the model's log 3). -/
def Obligations.StepRunsPlacedInstruction : Prop :=
  ∀ (s : State) (nbits w : Nat) (i : Instr), decodeTableWord nbits w = some i →
    ∃ est cyc rest, step (s.withFetchWord nbits w) = exec i (setReader (readingBits est cyc rest s.reader) s)

/-- A step of the unit runs the next message of the bus; after a discontinuity, unless that message is a resumption message, the resumption message
of the mode first, the message staying on the bus (R138, R176; logs 4 and 11). With nothing on the bus a latched trigger acts (R262; D31,
log 17), else the next enabled event is taken, off the list, with the draws of its index (R13; logs 3 to 5); so it is while the queue has no room
for the message due (R210, log 28). -/
def Obligations.StepRunsBusMessageOrEvent : Prop :=
  (∀ (s : State) (i : Instr) (rest : List Instr), s.reader.active = false → s.tx = none → s.bus = i :: rest →
    ((s.discont = false ∨ isResume i = true ∨ inTraceOn s = false) → sendHeld i s = false → step s = exec i { s with bus := rest }) ∧
    (s.discont = true → inTraceOn s = true → isResume i = false → sendHeld (resumeMessage s.ifctl) s = false →
      step s = exec (resumeMessage s.ifctl) s)) ∧
  (∀ (s : State) (b : Bool), s.reader.active = false → s.tx = none → s.bus = [] → s.latchedEn = some b →
    step s = .next (applyLatched (Config.draws s.drawIndex) b { s with drawIndex := s.drawIndex + 1 })) ∧
  (∀ (s : State) (e : Event) (rest : List Event), s.reader.active = false → s.tx = none →
    ((s.bus = [] ∧ s.latchedEn = none) ∨ (∃ i ms, s.bus = i :: ms ∧ sendHeld (busHead i ms s).1 s = true)) →
    takeEvent s false s.events = some (e, rest) →
    step s = handleEvent (Config.draws s.drawIndex) e { s with events := rest, drawIndex := s.drawIndex + 1 })

/-! ### The messages on the reader's side -/

/-- N.SEQ, N.BT, N.J8 and N.J16 yield one executed instruction: at the address each gives while the reader is synchronised, at an
unknown one otherwise. N.FPC gives the reader its PC and mode, synchronised; N.RES takes them away (R133 to R138, R144). That the offsets of
N.J8 and N.J16 are signed is the reading D8, the model's choice (log 12). -/
def Obligations.ReaderReplaysFlow : Prop :=
  ∀ (s : State), s.reader.active = true →
    (s.reader.synced = true →
      ∀ (i : Instr) (pc : Word),
        ((i = .nSeq ∧ pc = Config.seqNext s.reader.pc s.reader.ncc) ∨ (i = .nBt ∧ pc = Config.staticTarget s.reader.history) ∨
          (∃ d : BitVec 8, i = .nJ8 d ∧ pc = s.reader.pc + (d ++ 0#1 : BitVec 9).signExtend 32) ∨
          (∃ d : BitVec 16, i = .nJ16 d ∧ pc = s.reader.pc + (d ++ 0#1 : BitVec 17).signExtend 32)) →
        exec i s = .next { s with reader := { s.reader with
          pc := pc, history := (pc, s.reader.ncc) :: s.reader.history
          reports := .executed pc s.reader.ncc :: s.reader.reports } }) ∧
    (s.reader.synced = false →
      ∀ (i : Instr), (i = .nSeq ∨ i = .nBt ∨ (∃ d, i = .nJ8 d) ∨ (∃ d, i = .nJ16 d)) →
        exec i s = .next { s with reader := { s.reader with reports := .executedUnknown :: s.reader.reports } }) ∧
    (∀ (pc : BitVec 31) (ncc : Bool),
      exec (.nFpc pc ncc) s = .next { s with reader := { s.reader with
        pc := pc ++ 0#1, ncc := ncc, synced := true, history := (pc ++ 0#1, ncc) :: s.reader.history
        reports := .executed (pc ++ 0#1) ncc :: s.reader.reports } }) ∧
    exec .nRes s = .next { s with reader := { s.reader with
      synced := false, history := [], reports := .gap :: s.reader.reports } }

/-- S.UTM, S.BM, S.FD and S.FCE are reported with the pending cycles and their own; the pending count starts again (R165, R167, R169, R171,
R178). With CYC = 0 there is no time. -/
def Obligations.ReaderReportsEvents : Prop :=
  ∀ (s : State) (dc : Option (BitVec 10)) (time : Option Nat), s.reader.active = true →
    (dc = none ∧ time = none ∨ ∃ d : BitVec 10, dc = some d ∧ time = some (s.reader.elapsed + d.toNat)) →
    (∀ (data : BitVec 32) (utm2 : Bool), exec (.sUtm data utm2 dc) s =
      .next { s with reader := { s.reader with elapsed := 0, reports := .user utm2 data time :: s.reader.reports } }) ∧
    (∀ (id : BitVec 4) (ib : Bool) (pc : BitVec 31) (ncc : Bool), exec (.sBm id ib pc ncc dc) s =
      .next { s with reader := { s.reader with
        elapsed := 0, reports := .breakpoint id ib (pc ++ 0#1) ncc time :: s.reader.reports } }) ∧
    (∀ (id : BitVec 4) (load : Bool) (addr : BitVec 6) (field : BitVec 32), exec (.sFd id load true addr field dc) s =
      .next { s with reader := { s.reader with
        elapsed := 0, reports := .data id load true addr 15#4 field time :: s.reader.reports } }) ∧
    (∀ (id : BitVec 4) (load : Bool) (addr : BitVec 6) (field : BitVec 32), exec (.sFd id load false addr field dc) s =
      .next { s with reader := { s.reader with
        elapsed := 0
        reports := .data id load false addr (field.extractLsb' 28 4) ((field.extractLsb' 0 24).setWidth 32) time ::
          s.reader.reports } }) ∧
    (∀ (fc ex r : Bool) (pc : BitVec 31) (ncc : Bool), exec (.sFce fc ex r pc ncc dc) s =
      .next { s with reader := { s.reader with
        elapsed := 0, reports := .control fc ex r (pc ++ 0#1) ncc time :: s.reader.reports } })

/-- S.DCR adds 1023 cycles, S.RES is a gap that clears the pending count, S.RSV ends the decoding of the word (R100, R164, R176, R178). That S.RSV ends
the word in which its code ends, where the code spans two, is the model's choice (log 51). -/
def Obligations.ReaderCountsAndAbandons : Prop :=
  ∀ (s : State), s.reader.active = true →
    exec .sDcr s = .next { s with reader := { s.reader with elapsed := s.reader.elapsed + 1023 } } ∧
    exec .sRes s = .next { s with reader := { s.reader with elapsed := 0, reports := .gap :: s.reader.reports } } ∧
    exec .sRsv s = .next { s with reader := { s.reader with
      bits := [], aligned := false, reports := .abandoned :: s.reader.reports } }

/-- A message on the reader's side changes the reader and nothing else, and leaves the mode and the words it has not read alone. -/
def Obligations.ReaderMessageFrame : Prop :=
  ∀ (i : Instr) (s t : State), s.reader.active = true → exec i s = .next t →
    t = { s with reader := t.reader } ∧ (∀ a, readByte t a = readByte s a) ∧
    t.reader.active = true ∧ t.reader.est = s.reader.est ∧ t.reader.cyc = s.reader.cyc ∧ t.reader.words = s.reader.words ∧
    (i ≠ .sRsv → t.reader.bits = s.reader.bits ∧ t.reader.aligned = s.reader.aligned)

/-- How the reader gets from words to messages: without a whole message it takes the next word, whose tag gives the boundary where there is none,
whose bits join those left where there is one, and whose start at bit 0 shows a cut message; a gap in reception loses the boundary, a tag that
never occurs the word; at the end of the capture and at its fill the reader stops (R110, R114, R116, R216, U18). What a gap and a rejected word
do to the replay, and what is reported, are the model's choice (logs 38 and 56). -/
def Obligations.ReaderTakesWords : Prop :=
  ∀ (s : State), s.reader.active = true →
    (atFill s.reader = true →
      step s = .next { s with reader := { s.reader with active := false, words := [], bits := [], aligned := false } }) ∧
    (atFill s.reader = false →
      (s.reader.aligned = false ∨ decode s.reader.est s.reader.cyc s.reader.bits = .truncated) →
      (s.reader.words = [] →
        step s = .next { s with reader := { s.reader with active := false, words := [], bits := [], aligned := false } }) ∧
      (∀ (w : TraceWord) (rest : List Captured) (start : Nat), decTag (wordTag w) = some start →
        (s.reader.words = { word := w, afterGap := false } :: rest → s.reader.aligned = false →
          step s = .next { s with reader := { s.reader with
            words := rest, bits := (wordData w).drop start, aligned := true } }) ∧
        (s.reader.words = { word := w, afterGap := false } :: rest → s.reader.aligned = true → (start ≠ 0 ∨ s.reader.bits = []) →
          step s = .next { s with reader := { s.reader with words := rest, bits := s.reader.bits ++ wordData w } }) ∧
        (s.reader.words = { word := w, afterGap := false } :: rest → s.reader.aligned = true → start = 0 → s.reader.bits ≠ [] →
          step s = .next { s with reader := { s.reader with
            words := rest, bits := wordData w, reports := .cutMessage :: s.reader.reports } }) ∧
        (s.reader.words = { word := w, afterGap := true } :: rest →
          step s = .next { s with reader := { s.reader with
            words := rest, bits := (wordData w).drop start, aligned := true
            synced := false, history := [], elapsed := 0, reports := .receptionGap :: s.reader.reports } })) ∧
      (∀ (w : TraceWord) (rest : List Captured), decTag (wordTag w) = none →
        s.reader.words = { word := w, afterGap := false } :: rest →
        step s = .next { s with reader := { s.reader with
          words := rest, bits := [], aligned := false
          synced := false, history := [], elapsed := 0, reports := .corruptWord :: s.reader.reports } }))

/-! ### The messages on the unit's side -/

/-- A message that stands for the traced instruction and does not fill the word: its bits join the accumulator, the instruction becomes
the last traced one, no full PC is due (R133 to R137, R139, R202). -/
def Obligations.TracedMessageAccumulates : Prop :=
  ∀ (i : Instr) (s : State), isTraced i = true → s.reader.active = false → inTraceOn s = true →
    s.acc.length + (encode i).length < 58 →
    exec i s = .next { s with
      acc := s.acc ++ encode i, firstStart := some (s.firstStart.getD s.acc.length)
      lastPc := s.curPc, lastNcc := s.curNcc, needFullPc := false }

/-- A message that stands for the traced instruction and fills the word on chip: the 58 oldest bits under the tag of the first message
beginning in them go to ITCBWRP, which advances; the other bits stay (R133 to R137, R202, R203, R207). -/
def Obligations.TracedMessageStoresWord : Prop :=
  ∀ (i : Instr) (s : State), isTraced i = true → s.reader.active = false → inTraceOn s = true →
    58 ≤ s.acc.length + (encode i).length → s.ifctl.ofc = false → s.wrpAddr.toNat < 8 * s.params.tmemWords →
    exec i s = .next { s with
      acc := (s.acc ++ encode i).drop 58, firstStart := none
      lastPc := s.curPc, lastNcc := s.curNcc, needFullPc := false
      tmem := memWriteWord s.wrpAddr.toNat
        (packWord ((s.acc ++ encode i).take 58) (encTag (s.firstStart.getD s.acc.length))) s.tmem
      wrpAddr := if s.wrpAddr.toNat = 8 * (s.params.tmemWords - 1) then 0#32 else s.wrpAddr + 8#32
      wrpWrap := if s.wrpAddr.toNat = 8 * (s.params.tmemWords - 1) then true else s.wrpWrap }

/-- A special-mode message taken from the bus that does not fill the word writes the accumulator and nothing else (R164, R165, R167, R169, R171,
R202). That it leaves `dcyc` and the user registers alone is the model's choice: they are written when the message is generated (logs 4 and
46). -/
def Obligations.EventMessageAccumulates : Prop :=
  ∀ (i : Instr) (s : State), isEvent i = true → s.reader.active = false → inTraceOn s = true →
    s.acc.length + (encode i).length < 58 →
    exec i s = .next { s with acc := s.acc ++ encode i, firstStart := some (s.firstStart.getD s.acc.length) }

/-- A special-mode message taken from the bus that fills the word on chip: the word goes to ITCBWRP, which advances, and nothing else changes
(R202, R203, R207). That it leaves `dcyc` and the user registers alone is the model's choice: they are written when the message is generated
(logs 4 and 46). -/
def Obligations.EventMessageStoresWord : Prop :=
  ∀ (i : Instr) (s : State), isEvent i = true → s.reader.active = false → inTraceOn s = true →
    58 ≤ s.acc.length + (encode i).length → s.ifctl.ofc = false → s.wrpAddr.toNat < 8 * s.params.tmemWords →
    exec i s = .next { s with
      acc := (s.acc ++ encode i).drop 58, firstStart := none
      tmem := memWriteWord s.wrpAddr.toNat
        (packWord ((s.acc ++ encode i).take 58) (encTag (s.firstStart.getD s.acc.length))) s.tmem
      wrpAddr := if s.wrpAddr.toNat = 8 * (s.params.tmemWords - 1) then 0#32 else s.wrpAddr + 8#32
      wrpWrap := if s.wrpAddr.toNat = 8 * (s.params.tmemWords - 1) then true else s.wrpWrap }

/-- The resumption messages: N.RES ends the discontinuity and asks for a full PC, S.RES ends it and restarts the cycle count; the four ones join
the accumulator, and where they fill the word on chip it is stored as any other (R138, R176, R202, R203, R207). -/
def Obligations.ResumptionMessagesAccumulate : Prop :=
  ∀ (s : State), s.reader.active = false → inTraceOn s = true →
    (s.acc.length < 54 →
      exec .nRes s = .next { s with
        acc := s.acc ++ [true, true, true, true], firstStart := some (s.firstStart.getD s.acc.length)
        discont := false, needFullPc := true } ∧
      exec .sRes s = .next { s with
        acc := s.acc ++ [true, true, true, true], firstStart := some (s.firstStart.getD s.acc.length)
        discont := false, dcyc := 0#10 }) ∧
    (54 ≤ s.acc.length → s.ifctl.ofc = false → s.wrpAddr.toNat < 8 * s.params.tmemWords →
      exec .nRes s = .next { s with
        acc := (s.acc ++ [true, true, true, true]).drop 58, firstStart := none
        discont := false, needFullPc := true
        tmem := memWriteWord s.wrpAddr.toNat
          (packWord ((s.acc ++ [true, true, true, true]).take 58) (encTag (s.firstStart.getD s.acc.length))) s.tmem
        wrpAddr := if s.wrpAddr.toNat = 8 * (s.params.tmemWords - 1) then 0#32 else s.wrpAddr + 8#32
        wrpWrap := if s.wrpAddr.toNat = 8 * (s.params.tmemWords - 1) then true else s.wrpWrap } ∧
      exec .sRes s = .next { s with
        acc := (s.acc ++ [true, true, true, true]).drop 58, firstStart := none
        discont := false, dcyc := 0#10
        tmem := memWriteWord s.wrpAddr.toNat
          (packWord ((s.acc ++ [true, true, true, true]).take 58) (encTag (s.firstStart.getD s.acc.length))) s.tmem
        wrpAddr := if s.wrpAddr.toNat = 8 * (s.params.tmemWords - 1) then 0#32 else s.wrpAddr + 8#32
        wrpWrap := if s.wrpAddr.toNat = 8 * (s.params.tmemWords - 1) then true else s.wrpWrap })

/-- A message that fills the word off chip, with room in the queue: the word joins the queue; trace memory and ITCBWRP stay (R202, R203,
R208, D14, log 26). -/
def Obligations.FullWordIsQueued : Prop :=
  ∀ (i : Instr) (s : State), i ≠ .sRsv → s.reader.active = false → inTraceOn s = true →
    58 ≤ s.acc.length + (encode i).length → s.ifctl.ofc = true → s.fifo.length < s.params.fifoWords →
    exec i s = .next { beforeEmit i s with
      acc := (s.acc ++ encode i).drop 58, firstStart := none
      fifo := s.fifo ++ [packWord ((s.acc ++ encode i).take 58) (encTag (s.firstStart.getD s.acc.length))] }

/-- A message that fills the word off chip with the queue full: the word and the accumulator are lost, a discontinuity and a full PC are
due, and what is left in the queue is a part of it in its order (R209, D25, log 27). That the marks stand after N.RES, S.RES and the messages that
clear them is the model's choice (log 11). With IO = 1, where a step of the machine keeps such a message on the bus (R210, log 28), it says
what taking it all the same would do. -/
def Obligations.OverflowThrowsTraceAway : Prop :=
  ∀ (i : Instr) (s : State), i ≠ .sRsv → s.reader.active = false → inTraceOn s = true →
    58 ≤ s.acc.length + (encode i).length → s.ifctl.ofc = true → s.params.fifoWords ≤ s.fifo.length →
    ∃ t, exec i s = .next t ∧ t.acc = [] ∧ t.firstStart = none ∧ t.discont = true ∧ t.needFullPc = true ∧
      t.fifo.Sublist s.fifo ∧ t.tmem = s.tmem ∧ t.wrpAddr = s.wrpAddr ∧ t.wrpWrap = s.wrpWrap

/-- S.RSV put on the unit's bus is refused: it has no length, and the unit never generates it (R100, R166; log 48). While In_TraceOn is off the
unit ignores every other message on the bus (R6, U22; log 49). -/
def Obligations.ReservedRefusedOthersIgnored : Prop :=
  ∀ (s : State), s.reader.active = false → exec .sRsv s = .refused .reservedMessage ∧
    (inTraceOn s = false → ∀ i, i ≠ .sRsv → exec i s = .next s)

/-- The frame of every message on the unit's side: each register, counter, flag and byte of trace memory it does not name stays. A word
stored on chip lies at `storesAt i s`; with none stored every byte stays. That `dcyc`, the synchronization counter and the user registers stay
is the model's choice: they are written when a message is generated, before it is taken from the bus (logs 4 and 46). -/
def Obligations.UnitMessageFrame : Prop :=
  ∀ (i : Instr) (s t : State), s.reader.active = false → exec i s = .next t →
    (t.params = s.params ∧ t.ifctl = s.ifctl ∧ t.rdpAddr = s.rdpAddr ∧ t.itrig = s.itrig ∧ t.dtrig = s.dtrig ∧
      t.utd1 = s.utd1 ∧ t.utd2 = s.utd2 ∧ t.syncCtr = s.syncCtr ∧ t.tx = s.tx ∧ t.trData = s.trData ∧ t.trClk = s.trClk ∧
      t.portCycles = s.portCycles ∧ t.debugMode = s.debugMode ∧ t.probeConnected = s.probeConnected ∧ t.bus = s.bus ∧
      t.curPc = s.curPc ∧ t.curNcc = s.curNcc ∧ t.latchedEn = s.latchedEn ∧ t.readData = s.readData ∧ t.events = s.events ∧
      t.receiver = s.receiver ∧ t.reader = s.reader ∧ t.resetCount = s.resetCount) ∧
    (i ≠ .sRes → t.dcyc = s.dcyc) ∧
    (isTraced i = false → t.lastPc = s.lastPc ∧ t.lastNcc = s.lastNcc) ∧
    (s.ifctl.ofc = false → t.fifo = s.fifo ∧ (isResume i = false → t.discont = s.discont)) ∧
    (storesAt i s = none → t.wrpAddr = s.wrpAddr ∧ t.wrpWrap = s.wrpWrap ∧ ∀ x, readByte t x = readByte s x) ∧
    (∀ a, storesAt i s = some a → ∀ x, (x < a ∨ a + 8 ≤ x) → readByte t x = readByte s x)

/-- A trace word stored at ITCBWRP is read back there, and every byte outside its eight reads as before (R62, R207). -/
def Obligations.StoredWordReadsBack : Prop :=
  ∀ (s : State) (w : TraceWord), readWord (storeWord w s) s.wrpAddr.toNat = w ∧
    ∀ x, (x < s.wrpAddr.toNat ∨ s.wrpAddr.toNat + 8 ≤ x) → readByte (storeWord w s) x = readByte s x

/-! ### Registers -/

/-- Reading IFCTL returns its fields at their places, zeros in 30:15, and changes nothing else (R22, R24, R231). -/
def Obligations.IfctlReadReturnsFields : Prop :=
  ∀ (s : State), ∃ x : Word, regRead 0x3FC0 .word s = .next { s with readData := x.setWidth 64 } ∧
    x.getLsbD 31 = s.ifctl.illegal ∧ (∀ k, 15 ≤ k → k ≤ 30 → x.getLsbD k = false) ∧
    x.getLsbD 14 = s.ifctl.cyc ∧ x.getLsbD 13 = s.ifctl.fdt ∧ x.getLsbD 12 = s.ifctl.bm ∧ x.getLsbD 11 = s.ifctl.er ∧
    x.getLsbD 10 = s.ifctl.fcr ∧ x.getLsbD 9 = s.ifctl.est ∧ x.extractLsb' 5 4 = s.ifctl.syp ∧
    x.getLsbD 4 = s.ifctl.ofClk ∧ x.getLsbD 3 = s.ifctl.ofc ∧ x.getLsbD 2 = s.ifctl.io ∧ x.getLsbD 1 = s.ifctl.en ∧
    x.getLsbD 0 = s.ifctl.on

/-- Writing IFCTL while On = 0 sets every implemented field from its bit, leaves the others, ignores bits 31:15, and re-evaluates
`Illegal` (R23, R24, R232, R235). -/
def Obligations.IfctlWriteSetsFields : Prop :=
  ∀ (d : Config.Draws) (s : State) (v : BitVec 64), s.ifctl.on = false →
    ∃ t, regWrite d 0x3FC0 .word v s = .next t ∧
      t.ifctl.cyc = (if s.params.implCyc then v.getLsbD 14 else s.ifctl.cyc) ∧
      t.ifctl.fdt = (if s.params.implFdt then v.getLsbD 13 else s.ifctl.fdt) ∧
      t.ifctl.bm = (if s.params.implBm then v.getLsbD 12 else s.ifctl.bm) ∧
      t.ifctl.er = (if s.params.implEr then v.getLsbD 11 else s.ifctl.er) ∧
      t.ifctl.fcr = (if s.params.implFcr then v.getLsbD 10 else s.ifctl.fcr) ∧
      t.ifctl.est = (if s.params.implEst then v.getLsbD 9 else s.ifctl.est) ∧
      t.ifctl.syp = v.extractLsb' 5 4 ∧ t.ifctl.ofClk = v.getLsbD 4 ∧
      t.ifctl.ofc = (if s.params.hasOnchip && s.params.hasPib then v.getLsbD 3 else s.ifctl.ofc) ∧
      t.ifctl.io = v.getLsbD 2 ∧ t.ifctl.en = v.getLsbD 1 ∧ t.ifctl.on = v.getLsbD 0 ∧
      t.ifctl.illegal = !s.params.legal t.ifctl.cyc t.ifctl.fdt t.ifctl.bm t.ifctl.er t.ifctl.fcr t.ifctl.est ∧
      t.acc = s.acc ∧ t.tmem = s.tmem ∧ t.fifo = s.fifo ∧ t.wrpAddr = s.wrpAddr

/-- Turning On from 1 to 0: with bits accumulated one word is stored (on chip, ITCBWRP moving on and Wrap set at the top) or queued (off chip,
with room), the bits below and ones above; with none no word is made. Nothing stays accumulated (R205, R207, R208, R233; the tag of a word no
message begins in is D15, log 24). -/
def Obligations.StopFlushesPartialWord : Prop :=
  ∀ (d : Config.Draws) (s : State) (v : BitVec 64), s.ifctl.on = true → v.getLsbD 0 = false →
    (s.acc = [] →
      ∃ t, regWrite d 0x3FC0 .word v s = .next t ∧ t.ifctl.on = false ∧ t.acc = [] ∧ t.firstStart = none ∧
        t.tmem = s.tmem ∧ t.wrpAddr = s.wrpAddr ∧ t.wrpWrap = s.wrpWrap ∧ t.fifo = s.fifo) ∧
    (s.acc ≠ [] → (ifctlWritten s.params (v.setWidth 32) s.ifctl).ofc = false → s.wrpAddr.toNat < 8 * s.params.tmemWords →
      ∃ t, regWrite d 0x3FC0 .word v s = .next t ∧ t.ifctl.on = false ∧ t.acc = [] ∧ t.firstStart = none ∧ t.fifo = s.fifo ∧
        t.tmem = memWriteWord s.wrpAddr.toNat
          (packWord (s.acc ++ List.replicate (58 - s.acc.length) true) (encTag (s.firstStart.getD s.acc.length))) s.tmem ∧
        t.wrpAddr = (if s.wrpAddr.toNat = 8 * (s.params.tmemWords - 1) then 0#32 else s.wrpAddr + 8#32) ∧
        t.wrpWrap = (if s.wrpAddr.toNat = 8 * (s.params.tmemWords - 1) then true else s.wrpWrap)) ∧
    (s.acc ≠ [] → (ifctlWritten s.params (v.setWidth 32) s.ifctl).ofc = true → s.fifo.length < s.params.fifoWords →
      ∃ t, regWrite d 0x3FC0 .word v s = .next t ∧ t.ifctl.on = false ∧ t.acc = [] ∧ t.firstStart = none ∧
        t.tmem = s.tmem ∧ t.wrpAddr = s.wrpAddr ∧ t.wrpWrap = s.wrpWrap ∧
        t.fifo = s.fifo ++
          [packWord (s.acc ++ List.replicate (58 - s.acc.length) true) (encTag (s.firstStart.getD s.acc.length))])

/-- A write of IFCTL that leaves On = 1 and the mode as it was is taken, and flushes nothing, whatever it does to En (R206, R234). -/
def Obligations.EnableDoesNotFlush : Prop :=
  ∀ (d : Config.Draws) (s : State) (v : BitVec 64), s.ifctl.on = true → v.getLsbD 0 = true →
    modeChangeWhileOn s.ifctl (ifctlWritten s.params (v.setWidth 32) s.ifctl) = false →
    ∃ t, regWrite d 0x3FC0 .word v s = .next t ∧ t.ifctl.en = v.getLsbD 1 ∧ t.acc = s.acc ∧ t.firstStart = s.firstStart ∧
      t.tmem = s.tmem ∧ t.wrpAddr = s.wrpAddr ∧ t.fifo = s.fifo ∧ t.discont = s.discont ∧
      (inTraceOn s = false → inTraceOn t = true → t.needFullPc = true) ∧
      (inTraceOn s = true → t.needFullPc = s.needFullPc)

/-- A write of IFCTL that changes an implemented mode bit, or a settable OfC, while On stays 1 is refused (R321; the refusal is D30, log 29). -/
def Obligations.ModeChangeWhileOnIsRefused : Prop :=
  ∀ (d : Config.Draws) (s : State) (v : BitVec 64), s.ifctl.on = true → v.getLsbD 0 = true →
    ((s.params.implEst = true ∧ v.getLsbD 9 ≠ s.ifctl.est) ∨ (s.params.implCyc = true ∧ v.getLsbD 14 ≠ s.ifctl.cyc) ∨
      (s.params.implFdt = true ∧ v.getLsbD 13 ≠ s.ifctl.fdt) ∨ (s.params.implBm = true ∧ v.getLsbD 12 ≠ s.ifctl.bm) ∨
      (s.params.implEr = true ∧ v.getLsbD 11 ≠ s.ifctl.er) ∨ (s.params.implFcr = true ∧ v.getLsbD 10 ≠ s.ifctl.fcr) ∨
      (s.params.hasOnchip = true ∧ s.params.hasPib = true ∧ v.getLsbD 3 ≠ s.ifctl.ofc)) →
    regWrite d 0x3FC0 .word v s = .refused .modeChangeWhileOn

/-- Reading the lower word of ITCBTW returns bits 31:0 of the trace word at ITCBRDP and advances it, wrapping at the top of trace memory;
reading the upper word returns bits 63:32 and changes no state (R236, R237). -/
def Obligations.TraceWordReads : Prop :=
  ∀ (s : State), s.params.hasOnchip = true → s.ifctl.ofc = false → s.rdpAddr.toNat < 8 * s.params.tmemWords →
    regRead 0x3F80 .word s = .next { s with
      readData := ((readWord s s.rdpAddr.toNat).extractLsb' 0 32).setWidth 64
      rdpAddr := if s.rdpAddr.toNat = 8 * (s.params.tmemWords - 1) then 0#32 else s.rdpAddr + 8#32 } ∧
    regRead 0x3F84 .word s = .next { s with
      readData := ((readWord s s.rdpAddr.toNat).extractLsb' 32 32).setWidth 64 }

/-- The 64-bit read of ITCBTW on a 64-bit core returns the whole trace word at ITCBRDP and advances it once (R238). The read-out procedure
gathers, with On = 0, oldest first, the words below ITCBWRP, or with Wrap set all words of trace memory from ITCBWRP on, and leaves all but
ITCBRDP and the value read as it was (R74, R248; the counts are the spec's own derivation; the premise is D24). -/
def Obligations.ReadOutReturnsTraceMemory : Prop :=
  (∀ (s : State), s.params.hasOnchip = true → s.params.regWidth64 = true → s.ifctl.ofc = false →
    s.rdpAddr.toNat < 8 * s.params.tmemWords →
    regRead 0x3F80 .double s = .next { s with
      readData := readWord s s.rdpAddr.toNat
      rdpAddr := if s.rdpAddr.toNat = 8 * (s.params.tmemWords - 1) then 0#32 else s.rdpAddr + 8#32 }) ∧
  (∀ (d : Config.Draws) (s : State), GoodState s → s.ifctl.on = false → s.params.hasOnchip = true → s.ifctl.ofc = false →
    ∃ t, t = { s with rdpAddr := t.rdpAddr, readData := t.readData } ∧
      readOutTrace d s =
        if s.wrpWrap then
          some ((List.range s.params.tmemWords).map fun k => readWord s ((s.wrpAddr.toNat + 8 * k) % (8 * s.params.tmemWords)), t)
        else some ((List.range (s.wrpAddr.toNat / 8)).map fun k => readWord s (8 * k), t))

/-- A write of either half of ITCBTW is ignored (R239). That it is so with OfC = 1 too, where U12 lists accesses to ITCBTW as refused, is the
model's choice (log 53). -/
def Obligations.TraceWordWriteIsIgnored : Prop :=
  ∀ (d : Config.Draws) (s : State) (v : BitVec 64), s.params.hasOnchip = true →
    regWrite d 0x3F80 .word v s = .next s ∧ regWrite d 0x3F84 .word v s = .next s

/-- A pointer register takes bits n:3 of a write that names a word of trace memory, ITCBWRP its Wrap bit too, and reads back so, zeros
elsewhere (R38, R39, R240, R241); an address beyond trace memory is refused (U11, log 33). -/
def Obligations.PointerWrites : Prop :=
  ∀ (d : Config.Draws) (s : State) (v : BitVec 64) (a : Word), s.params.hasOnchip = true →
    (∀ k, a.getLsbD k = (decide (3 ≤ k ∧ k ≤ s.params.topBit ∧ k < 32) && v.getLsbD k)) → 2 ≤ s.params.topBit →
    s.params.topBit ≤ 30 →
    (a.toNat < 8 * s.params.tmemWords →
      regWrite d 0x3F88 .word v s = .next { s with rdpAddr := a } ∧
      regRead 0x3F88 .word { s with rdpAddr := a } = .next { s with rdpAddr := a, readData := a.setWidth 64 } ∧
      regWrite d 0x3F90 .word v s = .next { s with wrpAddr := a, wrpWrap := v.getLsbD 31 } ∧
      regRead 0x3F90 .word { s with wrpAddr := a, wrpWrap := v.getLsbD 31 } = .next { s with
        wrpAddr := a, wrpWrap := v.getLsbD 31
        readData := (if v.getLsbD 31 then a + 0x80000000#32 else a).setWidth 64 }) ∧
    (8 * s.params.tmemWords ≤ a.toNat →
      regWrite d 0x3F88 .word v s = .refused .pointerOutOfRange ∧
      regWrite d 0x3F90 .word v s = .refused .pointerOutOfRange)

/-- A trigger-enable register takes bits 28 and 14:0 of a write and reads back just those (R242, R243, D17, log 34). -/
def Obligations.TriggerRegistersReadBack : Prop :=
  ∀ (d : Config.Draws) (s : State) (v : BitVec 64),
    (∃ t, regWrite d 0x3FD0 .word v s = .next t ∧ t = { s with itrig := t.itrig } ∧
      regRead 0x3FD0 .word t = .next { t with readData := v &&& 0x10007FFF#64 }) ∧
    (∃ t, regWrite d 0x3FD8 .word v s = .next t ∧ t = { s with dtrig := t.dtrig } ∧
      regRead 0x3FD8 .word t = .next { t with readData := v &&& 0x10007FFF#64 })

/-- UserTraceData1 at (23, 3) and UserTraceData2 at (24, 3) hold what was last written to them, REG_WIDTH bits wide, and the other one stays;
outside special mode, and in it while tracing is off, a write makes no message (R42, R43, R69, R165, R244, R245), which is D23, the model's choice
(log 22). -/
def Obligations.UserRegistersHoldWrites : Prop :=
  ∀ (d e : Config.Draws) (s : State) (v : BitVec 64),
    inTraceOn s = false ∨ (unpredictable s.ifctl = false ∧ s.ifctl.est = false) →
    ∃ t u, handleEvent d (.cp0Write 23 3 v) s = .next t ∧ handleEvent d (.cp0Write 24 3 v) s = .next u ∧
      handleEvent e (.cp0Read 23 3) t = .next { t with readData := if s.params.regWidth64 then v else v &&& 0xFFFFFFFF#64 } ∧
      handleEvent e (.cp0Read 24 3) u = .next { u with readData := if s.params.regWidth64 then v else v &&& 0xFFFFFFFF#64 } ∧
      t = { s with utd1 := t.utd1 } ∧ u = { s with utd2 := u.utd2 }

/-- What every register reads right after reset, in every implementation (R53, R310). The reset event gives the unit these values again,
discards the partial word, the queue and the bus, makes trace memory unknown, and leaves the agents outside as they are (R313; which reset is
meant and what it discards is the model's choice, log 43). -/
def Obligations.ResetRegisterValues : Prop :=
  (∀ (p : Config.Params), p.wf = true →
    (∀ r, regRead 0x3FC0 .word (State.resetOf p) = .next r → r.readData = if p.ofcPreset then 8#64 else 0#64) ∧
    (∃ r, regRead 0x3FC0 .word (State.resetOf p) = .next r) ∧
    (p.hasOnchip = true →
      regRead 0x3F88 .word (State.resetOf p) = .next (State.resetOf p) ∧
      regRead 0x3F90 .word (State.resetOf p) = .next (State.resetOf p)) ∧
    regRead 0x3FD0 .word (State.resetOf p) = .next (State.resetOf p) ∧
    regRead 0x3FD8 .word (State.resetOf p) = .next (State.resetOf p) ∧
    cp0Read false (State.resetOf p) = .next (State.resetOf p) ∧
    cp0Read true (State.resetOf p) = .next (State.resetOf p) ∧
    (∃ r, config3Read (State.resetOf p) = .next r ∧ r.readData.getLsbD 8 = true)) ∧
  (∀ (d : Config.Draws) (s : State), ∃ t, handleEvent d .reset s = .next t ∧
    t.params = s.params ∧ t.ifctl = Ifctl.reset s.params ∧ t.rdpAddr = 0#32 ∧ t.wrpAddr = 0#32 ∧ t.wrpWrap = false ∧
    t.itrig = { gate := false, brk := 0#15 } ∧ t.dtrig = { gate := false, brk := 0#15 } ∧ t.utd1 = 0#64 ∧ t.utd2 = 0#64 ∧
    t.acc = [] ∧ t.firstStart = none ∧ t.needFullPc = true ∧ t.discont = false ∧ t.fifo = [] ∧ t.tx = none ∧ t.trData = 0#4 ∧
    t.bus = [] ∧ t.latchedEn = none ∧ (∀ a, readByte t a = Config.powerOnByte (s.resetCount + 1) a) ∧
    t.debugMode = s.debugMode ∧ t.probeConnected = s.probeConnected ∧ t.events = s.events ∧ t.receiver = s.receiver ∧
    t.reader = s.reader)

/-! ### The core tracing logic -/

/-- What is put on the bus for an instruction traced in normal mode on which no gated-in breakpoint matches: a full PC at a start, after a
discontinuity, at a change of NCC and at a synchronization, at a start perhaps behind N.RES; else the message of its flow, and for a dynamic
target any format that fits (R133 to R143). The model's choices: the order of the tests and the count (D9, log 14), the last PC and the signed
difference (D7 and D8, log 12), any format that fits (D8, log 13), N.RES at a start (D26, log 16), N.BT for every taken branch the event classes so (U13, log 57). -/
def Obligations.NormalModeMessageChoice : Prop :=
  ∀ (d : Config.Draws) (i : Retired) (s : State), inTraceOn s = true → s.ifctl.est = false → unpredictable s.ifctl = false →
    instrTriggers s i = 0#15 → dataTriggers s i = 0#15 →
    ∃ t ms, retire d i s = .next t ∧ t.bus = s.bus ++ ms ∧ t.curPc = i.pc ∧ t.curNcc = i.ncc ∧
      (if s.needFullPc = true ∨ s.discont = true ∨ i.ncc ≠ s.lastNcc ∨ s.syncCtr ≤ 1 then
        ms = [.nFpc (pcField i.pc) i.ncc] ∨
          (s.needFullPc = true ∧ s.discont = false ∧ ms = [.nRes, .nFpc (pcField i.pc) i.ncc])
       else match i.flow with
        | .seq => ms = [.nSeq]
        | .takenStatic => ms = [.nBt]
        | .dynamic => ms = [.nFpc (pcField i.pc) i.ncc] ∨
            (fits16 (i.pc - s.lastPc) = true ∧ ms = [.nJ16 (delta16 (i.pc - s.lastPc))]) ∨
            (fits8 (i.pc - s.lastPc) = true ∧ ms = [.nJ8 (delta8 (i.pc - s.lastPc))])) ∧
      t.syncCtr = (if s.syncCtr ≤ 1 then 2 ^ (s.ifctl.syp.toNat + 8) else s.syncCtr - 1)

/-- The operand fields give back what was put in them: a short-format offset and the field of a full PC the instruction's address; the S.FD data
field the byte enables and the value of the bytes they select (R106 to R108, D8, log 12). -/
def Obligations.OperandFieldsGiveValuesBack : Prop :=
  (∀ pc lastPc : Word, fits8 (pc - lastPc) = true → lastPc + offset8 (delta8 (pc - lastPc)) = pc) ∧
  (∀ pc lastPc : Word, fits16 (pc - lastPc) = true → lastPc + offset16 (delta16 (pc - lastPc)) = pc) ∧
  (∀ pc : Word, pc.getLsbD 0 = false → fieldPc (pcField pc) = pc) ∧
  (∀ data : Word, fieldValue true (dataField 15#4 data) = data ∧ fieldEnables true (dataField 15#4 data) = 15#4) ∧
  (∀ (be : BitVec 4) (data : Word), be ≠ 15#4 →
    fieldEnables false (dataField be data) = be ∧
    (fieldValue false (dataField be data)).toNat = data.toNat % 2 ^ (8 * popCount4 be) ∧
    fieldLaidOut false (dataField be data) = true)

/-- The synchronization comes after exactly the count that stands in the counter, which is then the period (R31, R141, D9, log 14). -/
def Obligations.SyncComesAfterCount : Prop :=
  ∀ (n : Nat) (s : State), s.syncCtr = n + 1 →
    (∀ k, k < n → (syncStep ((fun x => (syncStep x).2)^[k] s)).1 = false) ∧
    (syncStep ((fun x => (syncStep x).2)^[n] s)).1 = true ∧
    (syncStep ((fun x => (syncStep x).2)^[n] s)).2.syncCtr = 2 ^ (s.ifctl.syp.toNat + 8)

/-- When In_TraceOn rises, a full PC is due and the counters are drawn in their ranges, whatever the draws, and the accumulator stays: on
leaving DebugMode, on a write of IFCTL, on a start trigger latched behind its instruction, and on one that acts before it, which is then
sent as a full PC (R143, R201, R233, R234, R262, R287). The ranges of the draws are D9 and D12 (logs 14 and 18), the side of the trigger D31
(log 17). -/
def Obligations.TraceOnAsksForFullPc : Prop :=
  ∀ (d : Config.Draws) (s : State),
    (s.debugMode = true → s.ifctl.on = true → s.ifctl.en = true →
      ∃ t, handleEvent d .debugLeave s = .next t ∧ inTraceOn t = true ∧ t.needFullPc = true ∧ 1 ≤ t.syncCtr ∧
        t.syncCtr ≤ 2 ^ (s.ifctl.syp.toNat + 8) ∧ t.dcyc.toNat ≤ 1022 ∧ t.acc = s.acc ∧ t.discont = s.discont) ∧
    (s.debugMode = false → inTraceOn s = false → ∀ v : BitVec 64, v.getLsbD 0 = true → v.getLsbD 1 = true →
      modeChangeWhileOn s.ifctl (ifctlWritten s.params (v.setWidth 32) s.ifctl) = false →
      ∃ t, regWrite d 0x3FC0 .word v s = .next t ∧ inTraceOn t = true ∧ t.needFullPc = true ∧ 1 ≤ t.syncCtr ∧
        t.syncCtr ≤ 2 ^ ((v.extractLsb' 5 4).toNat + 8) ∧ t.dcyc.toNat ≤ 1022 ∧ t.acc = s.acc ∧ t.discont = s.discont) ∧
    (s.debugMode = false → s.ifctl.on = true → s.ifctl.en = false →
      inTraceOn (applyLatched d true s) = true ∧ (applyLatched d true s).needFullPc = true ∧
      1 ≤ (applyLatched d true s).syncCtr ∧ (applyLatched d true s).syncCtr ≤ 2 ^ (s.ifctl.syp.toNat + 8) ∧
      (applyLatched d true s).dcyc.toNat ≤ 1022 ∧ (applyLatched d true s).acc = s.acc ∧
      (applyLatched d true s).discont = true ∧ (applyLatched d true s).latchedEn = none) ∧
    (∀ (i : Retired) (b : Nat), b < s.params.nIbrk → s.params.nIbrk ≤ 15 → s.debugMode = false → s.ifctl.on = true →
      s.ifctl.en = false → s.ifctl.est = false → unpredictable s.ifctl = false → s.itrig.gate = true →
      s.itrig.brk.getLsbD b = true → i.ibp = BitVec.ofNat 15 (2 ^ b) → i.mem = none → d.afterI = 0#15 →
      ∃ t, retire d i s = .next t ∧ inTraceOn t = true ∧ t.bus = s.bus ++ [.nFpc (pcField i.pc) i.ncc] ∧
        t.needFullPc = true ∧ t.discont = true ∧ 1 ≤ t.syncCtr ∧ t.syncCtr ≤ 2 ^ (s.ifctl.syp.toNat + 8) ∧
        t.dcyc.toNat ≤ 1022 ∧ t.acc = s.acc)

/-- A single instruction breakpoint, gated in, makes one S.BM message in breakpoint match mode, and nothing else on the bus (R167,
R261, R263, D32, log 23). -/
def Obligations.BreakpointMatchMessage : Prop :=
  ∀ (d : Config.Draws) (i : Retired) (s : State) (b : Nat), b < s.params.nIbrk → s.params.nIbrk ≤ 15 →
    inTraceOn s = true → s.ifctl.est = true → s.ifctl.illegal = false → s.ifctl.bm = true → s.ifctl.fcr = false →
    s.ifctl.er = false → s.itrig.gate = true → i.ibp = BitVec.ofNat 15 (2 ^ b) → i.ibpBe = 0#15 → i.mem = none →
    ∃ t, retire d i s = .next t ∧
      t.bus = s.bus ++ [.sBm (BitVec.ofNat 4 b) true (pcField i.pc) i.ncc
        (if s.ifctl.cyc then some (if s.discont then 0#10 else s.dcyc) else none)] ∧ t.dcyc = 0#10

/-- A single data breakpoint, gated in, on an access of at most 32 bits makes one S.FD message in filtered data mode (R169, R261),
unless a gated-in instruction breakpoint with TE and BE set matches too: that run is refused (R264, U6, log 31). -/
def Obligations.FilteredDataMessage : Prop :=
  ∀ (d : Config.Draws) (i : Retired) (m : MemAccess) (s : State) (b : Nat), b < s.params.nDbrk → s.params.nDbrk ≤ 15 →
    inTraceOn s = true → s.ifctl.est = true → s.ifctl.illegal = false → s.ifctl.fdt = true → s.ifctl.bm = false →
    s.ifctl.fcr = false → s.ifctl.er = false → s.dtrig.gate = true → i.mem = some m → m.dbp = BitVec.ofNat 15 (2 ^ b) →
    m.dbpBe = 0#15 → m.wide = false →
    (instrTriggers s i &&& i.ibpBe = 0#15 →
      ∃ t, retire d i s = .next t ∧
        t.bus = s.bus ++ [.sFd (BitVec.ofNat 4 b) m.load (m.be == 15#4) (m.addr.extractLsb' 2 6) (dataField m.be m.data)
          (if s.ifctl.cyc then some (if s.discont then 0#10 else s.dcyc) else none)] ∧ t.dcyc = 0#10) ∧
    (instrTriggers s i &&& i.ibpBe ≠ 0#15 → retire d i s = .refused .breakEnableSet)

/-- Calls, returns and exceptions make one S.FCE message with every applicable bit, and none when no bit applies (R171, D20, log 19). -/
def Obligations.FlowEventMessage : Prop :=
  ∀ (d : Config.Draws) (i : Retired) (s : State), inTraceOn s = true → s.ifctl.est = true → s.ifctl.illegal = false →
    s.ifctl.bm = false → s.ifctl.fdt = false →
    ∃ t, retire d i s = .next t ∧
      (if (s.ifctl.fcr && i.call) || (s.ifctl.er && i.exc) || ((s.ifctl.fcr && i.ret) || (s.ifctl.er && i.eret)) then
        t.bus = s.bus ++ [.sFce (s.ifctl.fcr && i.call) (s.ifctl.er && i.exc)
          ((s.ifctl.fcr && i.ret) || (s.ifctl.er && i.eret)) (pcField i.pc) i.ncc
          (if s.ifctl.cyc then some (if s.discont then 0#10 else s.dcyc) else none)]
       else t = s)

/-- A user write in special mode while tracing updates its register, REG_WIDTH bits wide, leaves the other, and makes one S.UTM message with the
low 32 bits (R165, R245, D23, log 22). -/
def Obligations.UserMessage : Prop :=
  ∀ (d : Config.Draws) (second : Bool) (v : BitVec 64) (s : State), inTraceOn s = true → s.ifctl.est = true →
    s.ifctl.illegal = false →
    ∃ t, handleEvent d (.cp0Write (if second then 24 else 23) 3 v) s = .next t ∧
      t.bus = s.bus ++ [.sUtm (v.setWidth 32) second
        (if s.ifctl.cyc then some (if s.discont then 0#10 else s.dcyc) else none)] ∧ t.dcyc = 0#10 ∧
      (second = false → t.utd1 = (if s.params.regWidth64 then v else v &&& 0xFFFFFFFF#64) ∧ t.utd2 = s.utd2) ∧
      (second = true → t.utd2 = (if s.params.regWidth64 then v else v &&& 0xFFFFFFFF#64) ∧ t.utd1 = s.utd1)

/-- In special mode with CYC, while tracing, each running tick after a message counts one cycle; 1023 of them make exactly one rollover message,
and fewer make none (R162, R164, D12, log 18). -/
def Obligations.RolloverAfter1023Cycles : Prop :=
  ∀ (d : Config.Draws) (s : State), inTraceOn s = true → s.ifctl.est = true → s.ifctl.cyc = true → s.ifctl.illegal = false →
    s.dcyc = 0#10 →
    (∀ n, n ≤ 1022 → handleAll d (List.replicate n (.tick true)) s = .next { s with dcyc := BitVec.ofNat 10 n }) ∧
    handleAll d (List.replicate 1023 (.tick true)) s = .next { s with bus := s.bus ++ [.sDcr], dcyc := 0#10 }

/-- A cycle in which the clock is stopped changes nothing (R163). -/
def Obligations.StoppedClockChangesNothing : Prop :=
  ∀ (d : Config.Draws) (s : State), handleEvent d (.tick false) s = .next s

/-- In normal mode a single instruction trigger, gated in and drawn to act before its instruction, gives En its IBrk bit; a change is a
discontinuity (R262, R268, D31, log 17). -/
def Obligations.TriggerSwitchesEnable : Prop :=
  ∀ (d : Config.Draws) (i : Retired) (s : State) (b : Nat), b < s.params.nIbrk → s.params.nIbrk ≤ 15 →
    s.ifctl.on = true → s.debugMode = false → s.ifctl.est = false → unpredictable s.ifctl = false → s.itrig.gate = true →
    i.ibp = BitVec.ofNat 15 (2 ^ b) → i.mem = none → d.afterI = 0#15 →
    ∃ t, retire d i s = .next t ∧ t.ifctl.en = s.itrig.brk.getLsbD b ∧
      (s.itrig.brk.getLsbD b ≠ s.ifctl.en → t.discont = true) ∧
      (s.itrig.brk.getLsbD b = s.ifctl.en → t.discont = s.discont) ∧
      (s.itrig.brk.getLsbD b = false → t.bus = s.bus)

/-- With both gates closed no breakpoint has any effect on tracing (R261). That this holds in special mode too is D22, the model's choice
(log 21), and so it is for breakpoints with TE and BE set (log 31). -/
def Obligations.ClosedGatesHideBreakpoints : Prop :=
  ∀ (d : Config.Draws) (i : Retired) (s : State), s.itrig.gate = false → s.dtrig.gate = false →
    retire d i s = retire d { i with ibp := 0#15, ibpBe := 0#15, mem := i.mem.map fun m => { m with dbp := 0#15, dbpBe := 0#15 } } s

/-- In special mode a retired instruction, whatever its triggers, leaves IFCTL and the trigger latch as they are (R263). -/
def Obligations.SpecialModeKeepsEnable : Prop :=
  ∀ (d : Config.Draws) (i : Retired) (s t : State), s.ifctl.est = true → retire d i s = .next t →
    t.ifctl = s.ifctl ∧ t.latchedEn = s.latchedEn

/-- With On = 0 or in DebugMode an instruction and a tick change nothing, and a user write only its register (R130, R165, R177, R201, R261,
R287). -/
def Obligations.NothingTracedInDebugMode : Prop :=
  ∀ (d : Config.Draws) (s : State), s.debugMode = true ∨ s.ifctl.on = false →
    (∀ i, handleEvent d (.retire i) s = .next s) ∧ (∀ b, handleEvent d (.tick b) s = .next s) ∧
    (∀ v, handleEvent d (.cp0Write 23 3 v) s =
      .next { s with utd1 := if s.params.regWidth64 then v else v &&& 0xFFFFFFFF#64 }) ∧
    (∀ v, handleEvent d (.cp0Write 24 3 v) s =
      .next { s with utd2 := if s.params.regWidth64 then v else v &&& 0xFFFFFFFF#64 })

/-- Whatever an event puts on the bus is a message the unit may generate in its mode; in particular never S.RSV (R105, R108,
R166, R171). That no DeltaCycle is 1023 is D12 (R162, U4), the model's choice (log 18). -/
def Obligations.GeneratedMessagesAreWellFormed : Prop :=
  ∀ (d : Config.Draws) (e : Event) (s t : State), s.dcyc ≠ 1023#10 → handleEvent d e s = .next t →
    ∀ m ∈ t.bus, m ∈ s.bus ∨ m.wellFormed s.ifctl.est s.ifctl.cyc = true

/-! ### The queue and the port -/

/-- A PibTake loads the oldest queued word and puts its first nibble on TR_DATA; the word then reaches a waiting receiver of a connected probe in
sixteen steps, whole, and the port is idle again with zero on TR_DATA. An idle slot changes no word (R115, R212, R213, R216). The core cycles
the slots are counted as are log 36's. -/
def Obligations.SixteenSlotsDeliverWord : Prop :=
  (∀ (d : Config.Draws) (s : State) (w : TraceWord) (rest : List TraceWord), s.ifctl.ofc = true → s.fifo = w :: rest → s.tx = none →
    (s.params.hasTrProbeN = true → s.params.probeGatesPort = true → s.probeConnected = true) →
    handleEvent d .pibTake s = .next { s with
      fifo := rest, tx := some { word := w, nibble := 0 }, trData := w.extractLsb' 0 4 }) ∧
  (∀ (d : Config.Draws) (s : State), s.tx = none → s.receiver.nibbles = [] → s.probeConnected = true →
    ∃ t, handleEvent d .idleSlot s = .next t ∧ t.receiver = s.receiver ∧ t.fifo = s.fifo ∧ t.tx = none ∧
      (s.params.hasPib = true → t.trData = 0#4)) ∧
  (∀ (s : State) (w : TraceWord), s.reader.active = false → s.probeConnected = true → s.tx = some { word := w, nibble := 0 } →
    s.receiver.nibbles = [] → Framed w →
    ∃ t, Host.Core.run Sys2Proof.core 16 s = .next t ∧
      t.receiver = { nibbles := [], words := s.receiver.words ++ [{ word := w, afterGap := s.receiver.gap }], gap := false } ∧
      t.tx = none ∧ t.trData = 0#4 ∧ t.portCycles = s.portCycles + 16 * (if s.ifctl.ofc && s.ifctl.ofClk then 1 else 2) ∧
      t.fifo = s.fifo ∧ t.tmem = s.tmem ∧ t.acc = s.acc)

/-- With overflow inhibited, taking a message from the bus loses no word and makes no discontinuity (R210; log 28). -/
def Obligations.InhibitedOverflowLosesNothing : Prop :=
  ∀ (s s' t : State) (i : Instr), s.ifctl.ofc = true → s.ifctl.io = true → s.reader.active = false →
    busNext s = some (i, s') → exec i s' = .next t →
    (t.fifo = s.fifo ∨ ∃ w, t.fifo = s.fifo ++ [w]) ∧ (t.discont = true → s.discont = true)

/-- While In_Stall is on no Retire and no Cp0Write is taken; a Tick or a PibTake at the head of the list is (R210). -/
def Obligations.StallHoldsTheCore : Prop :=
  ∀ (s : State), inStall s = true →
    (∀ held es e rest, takeEvent s held es = some (e, rest) → (∀ i, e ≠ .retire i) ∧ ∀ k l v, e ≠ .cp0Write k l v) ∧
    (∀ b es, takeEvent s false (.tick b :: es) = some (.tick b, es)) ∧
    (∀ es, takeEvent s false (.pibTake :: es) = some (.pibTake, es))

/-- The messages the unit sends off chip, with room for their words, are in the queued words and the accumulator exactly as they were sent
(R71, R200, R202, R208). -/
def Obligations.SentMessagesAreTheStream : Prop :=
  ∀ (ms : List Instr) (s t : State), (∀ i ∈ ms, i ≠ .sRsv) → s.reader.active = false → inTraceOn s = true → s.ifctl.ofc = true →
    s.acc.length < 58 → s.fifo.length + (s.acc.length + (ms.flatMap encode).length) / 58 ≤ s.params.fifoWords →
    sendAll ms s = .next t →
    joinData t.fifo ++ t.acc = joinData s.fifo ++ s.acc ++ ms.flatMap encode

/-- A reader told the mode, given the words of an off-chip run that was stopped, decodes in its steps exactly the messages the unit sent, if the last
of them is no resumption message, which fill would hide (R110, R114, R116, R200, R202, R205, R216, U5). -/
def Obligations.ReaderRecoversSentMessages : Prop :=
  ∀ (est cyc : Bool) (ms : List Instr) (s : State), (∀ i ∈ ms, i ≠ .sRsv ∧ i.fits est cyc = true) →
    (∀ i, ms.getLast? = some i → isResume i = false) →
    s.reader.active = false → inTraceOn s = true → s.ifctl.ofc = true → s.fifo = [] → s.acc = [] → s.firstStart = none →
    (ms.flatMap encode).length / 58 + 1 ≤ s.params.fifoWords →
    ∃ t u, sendAll ms s = .next t ∧ flush t = .next u ∧
      readAll (ms.length + u.fifo.length + 1) (setReader (startReading est cyc (wholeCapture u.fifo)) u) = ms

/-! ### The invariant -/

/-- Every implementation's reset state meets the invariant (R10, R310, R311; the values the spec does not give are those of logs 7 and 8). -/
def Obligations.ResetMeetsInv : Prop :=
  ∀ (p : Config.Params), p.wf = true → GoodState (State.resetOf p)

/-- Every step keeps the invariant. -/
def Obligations.StepKeepsInv : Prop :=
  ∀ (s t : State), GoodState s → step s = .next t → GoodState t

/-- A state that meets the invariant never faults: the pointers name words that exist. -/
def Obligations.InvStepNeverFaults : Prop :=
  ∀ (s : State), GoodState s → notFault (step s)
end

