-- ==== Sys2Proof/Laws/Bits.lean ====
section
/-! SUPPORT. Bit strings and fields: lengths, and going to a number and back. -/

namespace Sys2Proof

@[simp] theorem length_toBits (n v : Nat) : (toBits n v).length = n := by
  induction n generalizing v with
  | zero => rfl
  | succ k ih => simp [toBits, ih]

@[simp] theorem length_fieldBits {n : Nat} (v : BitVec n) : (fieldBits v).length = n :=
  length_toBits n _

@[simp] theorem ofBits_toBits (n v : Nat) : ofBits (toBits n v) = v % 2 ^ n := by
  induction n generalizing v with
  | zero => simp [toBits, ofBits, Nat.mod_one]
  | succ k ih =>
    simp only [toBits, ofBits, ih, Nat.pow_succ]
    have h : (v % 2 == 1).toNat = v % 2 := by
      rcases Nat.mod_two_eq_zero_or_one v with h | h <;> simp [h]
    rw [h, Nat.mul_comm (2 ^ k) 2, Nat.mod_mul]

theorem ofBits_lt (bits : List Bool) : ofBits bits < 2 ^ bits.length := by
  induction bits with
  | nil => simp [ofBits]
  | cons b bs ih => cases b <;> simp [ofBits, Nat.pow_succ] <;> omega

@[simp] theorem toBits_ofBits (bits : List Bool) : toBits bits.length (ofBits bits) = bits := by
  induction bits with
  | nil => rfl
  | cons b bs ih =>
    have h : (b.toNat + 2 * ofBits bs) / 2 = ofBits bs := by cases b <;> simp; omega
    have h' : ((b.toNat + 2 * ofBits bs) % 2 == 1) = b := by cases b <;> simp [Nat.add_mod]
    simp only [List.length_cons, toBits, ofBits, h, h', ih]

@[simp] theorem ofBits_fieldBits {n : Nat} (v : BitVec n) : ofBits (fieldBits v) = v.toNat := by
  simp [fieldBits, Nat.mod_eq_of_lt v.isLt]

@[simp] theorem ofNat_ofBits_fieldBits {n : Nat} (v : BitVec n) : BitVec.ofNat n (ofBits (fieldBits v)) = v := by
  simp

theorem fieldBits_ofNat_ofBits (bits : List Bool) (n : Nat) (h : bits.length = n) :
    fieldBits (BitVec.ofNat n (ofBits bits)) = bits := by
  subst h
  simp [fieldBits, Nat.mod_eq_of_lt (ofBits_lt bits)]

theorem ofBits_append (a b : List Bool) : ofBits (a ++ b) = ofBits a + 2 ^ a.length * ofBits b := by
  induction a with
  | nil => simp [ofBits]
  | cons x xs ih => simp [ofBits, ih, Nat.pow_succ]; ring

/-- Taking a field gives back the field that was put there. -/
@[simp] theorem takeField_fieldBits {n : Nat} (v : BitVec n) (rest : List Bool) (k : BitVec n → List Bool → Decoded) :
    takeField n (fieldBits v ++ rest) k = k v rest := by
  simp [takeField]

@[simp] theorem takeFlag_cons (b : Bool) (rest : List Bool) (k : Bool → List Bool → Decoded) :
    takeFlag (b :: rest) k = k b rest := rfl

/-- Taking the DeltaCycle field gives back the one that was put there. -/
@[simp] theorem takeDelta_deltaBits (dc : Option (BitVec 10)) (rest : List Bool)
    (k : Option (BitVec 10) → List Bool → Decoded) :
    takeDelta dc.isSome (deltaBits dc ++ rest) k = k dc rest := by
  cases dc <;> simp [takeDelta, deltaBits]

theorem length_deltaBits (dc : Option (BitVec 10)) : (deltaBits dc).length = if dc.isSome then 10 else 0 := by
  cases dc <;> simp [deltaBits]

theorem length_deltaBits_le (dc : Option (BitVec 10)) : (deltaBits dc).length ≤ 10 := by
  cases dc <;> simp [deltaBits]

end Sys2Proof
end

