-- ==== Sys2Proof/Laws/State.lean ====
section
/-! SUPPORT. One lemma per field of each named update of State, true by rfl, so that no proof unfolds a record update. -/

namespace Sys2Proof.Machine

variable (s : State)

/-! ### setReader -/

@[simp] theorem setReader_params (r : Reader) : (setReader r s).params = s.params := rfl
@[simp] theorem setReader_ifctl (r : Reader) : (setReader r s).ifctl = s.ifctl := rfl
@[simp] theorem setReader_rdpAddr (r : Reader) : (setReader r s).rdpAddr = s.rdpAddr := rfl
@[simp] theorem setReader_wrpAddr (r : Reader) : (setReader r s).wrpAddr = s.wrpAddr := rfl
@[simp] theorem setReader_wrpWrap (r : Reader) : (setReader r s).wrpWrap = s.wrpWrap := rfl
@[simp] theorem setReader_itrig (r : Reader) : (setReader r s).itrig = s.itrig := rfl
@[simp] theorem setReader_dtrig (r : Reader) : (setReader r s).dtrig = s.dtrig := rfl
@[simp] theorem setReader_utd1 (r : Reader) : (setReader r s).utd1 = s.utd1 := rfl
@[simp] theorem setReader_utd2 (r : Reader) : (setReader r s).utd2 = s.utd2 := rfl
@[simp] theorem setReader_tmem (r : Reader) : (setReader r s).tmem = s.tmem := rfl
@[simp] theorem setReader_acc (r : Reader) : (setReader r s).acc = s.acc := rfl
@[simp] theorem setReader_firstStart (r : Reader) : (setReader r s).firstStart = s.firstStart := rfl
@[simp] theorem setReader_syncCtr (r : Reader) : (setReader r s).syncCtr = s.syncCtr := rfl
@[simp] theorem setReader_dcyc (r : Reader) : (setReader r s).dcyc = s.dcyc := rfl
@[simp] theorem setReader_lastPc (r : Reader) : (setReader r s).lastPc = s.lastPc := rfl
@[simp] theorem setReader_lastNcc (r : Reader) : (setReader r s).lastNcc = s.lastNcc := rfl
@[simp] theorem setReader_needFullPc (r : Reader) : (setReader r s).needFullPc = s.needFullPc := rfl
@[simp] theorem setReader_discont (r : Reader) : (setReader r s).discont = s.discont := rfl
@[simp] theorem setReader_fifo (r : Reader) : (setReader r s).fifo = s.fifo := rfl
@[simp] theorem setReader_tx (r : Reader) : (setReader r s).tx = s.tx := rfl
@[simp] theorem setReader_trData (r : Reader) : (setReader r s).trData = s.trData := rfl
@[simp] theorem setReader_trClk (r : Reader) : (setReader r s).trClk = s.trClk := rfl
@[simp] theorem setReader_portCycles (r : Reader) : (setReader r s).portCycles = s.portCycles := rfl
@[simp] theorem setReader_debugMode (r : Reader) : (setReader r s).debugMode = s.debugMode := rfl
@[simp] theorem setReader_probeConnected (r : Reader) : (setReader r s).probeConnected = s.probeConnected := rfl
@[simp] theorem setReader_bus (r : Reader) : (setReader r s).bus = s.bus := rfl
@[simp] theorem setReader_curPc (r : Reader) : (setReader r s).curPc = s.curPc := rfl
@[simp] theorem setReader_curNcc (r : Reader) : (setReader r s).curNcc = s.curNcc := rfl
@[simp] theorem setReader_latchedEn (r : Reader) : (setReader r s).latchedEn = s.latchedEn := rfl
@[simp] theorem setReader_readData (r : Reader) : (setReader r s).readData = s.readData := rfl
@[simp] theorem setReader_events (r : Reader) : (setReader r s).events = s.events := rfl
@[simp] theorem setReader_receiver (r : Reader) : (setReader r s).receiver = s.receiver := rfl
@[simp] theorem setReader_reader (r : Reader) : (setReader r s).reader = r := rfl
@[simp] theorem setReader_drawIndex (r : Reader) : (setReader r s).drawIndex = s.drawIndex := rfl
@[simp] theorem setReader_resetCount (r : Reader) : (setReader r s).resetCount = s.resetCount := rfl

/-! ### accumulate -/

@[simp] theorem accumulate_params (m : List Bool) : (accumulate m s).params = s.params := rfl
@[simp] theorem accumulate_ifctl (m : List Bool) : (accumulate m s).ifctl = s.ifctl := rfl
@[simp] theorem accumulate_rdpAddr (m : List Bool) : (accumulate m s).rdpAddr = s.rdpAddr := rfl
@[simp] theorem accumulate_wrpAddr (m : List Bool) : (accumulate m s).wrpAddr = s.wrpAddr := rfl
@[simp] theorem accumulate_wrpWrap (m : List Bool) : (accumulate m s).wrpWrap = s.wrpWrap := rfl
@[simp] theorem accumulate_itrig (m : List Bool) : (accumulate m s).itrig = s.itrig := rfl
@[simp] theorem accumulate_dtrig (m : List Bool) : (accumulate m s).dtrig = s.dtrig := rfl
@[simp] theorem accumulate_utd1 (m : List Bool) : (accumulate m s).utd1 = s.utd1 := rfl
@[simp] theorem accumulate_utd2 (m : List Bool) : (accumulate m s).utd2 = s.utd2 := rfl
@[simp] theorem accumulate_tmem (m : List Bool) : (accumulate m s).tmem = s.tmem := rfl
@[simp] theorem accumulate_acc (m : List Bool) : (accumulate m s).acc = s.acc ++ m := rfl
@[simp] theorem accumulate_firstStart (m : List Bool) : (accumulate m s).firstStart = some (startPosition s) := rfl
@[simp] theorem accumulate_syncCtr (m : List Bool) : (accumulate m s).syncCtr = s.syncCtr := rfl
@[simp] theorem accumulate_dcyc (m : List Bool) : (accumulate m s).dcyc = s.dcyc := rfl
@[simp] theorem accumulate_lastPc (m : List Bool) : (accumulate m s).lastPc = s.lastPc := rfl
@[simp] theorem accumulate_lastNcc (m : List Bool) : (accumulate m s).lastNcc = s.lastNcc := rfl
@[simp] theorem accumulate_needFullPc (m : List Bool) : (accumulate m s).needFullPc = s.needFullPc := rfl
@[simp] theorem accumulate_discont (m : List Bool) : (accumulate m s).discont = s.discont := rfl
@[simp] theorem accumulate_fifo (m : List Bool) : (accumulate m s).fifo = s.fifo := rfl
@[simp] theorem accumulate_tx (m : List Bool) : (accumulate m s).tx = s.tx := rfl
@[simp] theorem accumulate_trData (m : List Bool) : (accumulate m s).trData = s.trData := rfl
@[simp] theorem accumulate_trClk (m : List Bool) : (accumulate m s).trClk = s.trClk := rfl
@[simp] theorem accumulate_portCycles (m : List Bool) : (accumulate m s).portCycles = s.portCycles := rfl
@[simp] theorem accumulate_debugMode (m : List Bool) : (accumulate m s).debugMode = s.debugMode := rfl
@[simp] theorem accumulate_probeConnected (m : List Bool) : (accumulate m s).probeConnected = s.probeConnected := rfl
@[simp] theorem accumulate_bus (m : List Bool) : (accumulate m s).bus = s.bus := rfl
@[simp] theorem accumulate_curPc (m : List Bool) : (accumulate m s).curPc = s.curPc := rfl
@[simp] theorem accumulate_curNcc (m : List Bool) : (accumulate m s).curNcc = s.curNcc := rfl
@[simp] theorem accumulate_latchedEn (m : List Bool) : (accumulate m s).latchedEn = s.latchedEn := rfl
@[simp] theorem accumulate_readData (m : List Bool) : (accumulate m s).readData = s.readData := rfl
@[simp] theorem accumulate_events (m : List Bool) : (accumulate m s).events = s.events := rfl
@[simp] theorem accumulate_receiver (m : List Bool) : (accumulate m s).receiver = s.receiver := rfl
@[simp] theorem accumulate_reader (m : List Bool) : (accumulate m s).reader = s.reader := rfl
@[simp] theorem accumulate_drawIndex (m : List Bool) : (accumulate m s).drawIndex = s.drawIndex := rfl
@[simp] theorem accumulate_resetCount (m : List Bool) : (accumulate m s).resetCount = s.resetCount := rfl

/-! ### clearAcc -/

@[simp] theorem clearAcc_params : (clearAcc s).params = s.params := rfl
@[simp] theorem clearAcc_ifctl : (clearAcc s).ifctl = s.ifctl := rfl
@[simp] theorem clearAcc_rdpAddr : (clearAcc s).rdpAddr = s.rdpAddr := rfl
@[simp] theorem clearAcc_wrpAddr : (clearAcc s).wrpAddr = s.wrpAddr := rfl
@[simp] theorem clearAcc_wrpWrap : (clearAcc s).wrpWrap = s.wrpWrap := rfl
@[simp] theorem clearAcc_itrig : (clearAcc s).itrig = s.itrig := rfl
@[simp] theorem clearAcc_dtrig : (clearAcc s).dtrig = s.dtrig := rfl
@[simp] theorem clearAcc_utd1 : (clearAcc s).utd1 = s.utd1 := rfl
@[simp] theorem clearAcc_utd2 : (clearAcc s).utd2 = s.utd2 := rfl
@[simp] theorem clearAcc_tmem : (clearAcc s).tmem = s.tmem := rfl
@[simp] theorem clearAcc_acc : (clearAcc s).acc = [] := rfl
@[simp] theorem clearAcc_firstStart : (clearAcc s).firstStart = none := rfl
@[simp] theorem clearAcc_syncCtr : (clearAcc s).syncCtr = s.syncCtr := rfl
@[simp] theorem clearAcc_dcyc : (clearAcc s).dcyc = s.dcyc := rfl
@[simp] theorem clearAcc_lastPc : (clearAcc s).lastPc = s.lastPc := rfl
@[simp] theorem clearAcc_lastNcc : (clearAcc s).lastNcc = s.lastNcc := rfl
@[simp] theorem clearAcc_needFullPc : (clearAcc s).needFullPc = s.needFullPc := rfl
@[simp] theorem clearAcc_discont : (clearAcc s).discont = s.discont := rfl
@[simp] theorem clearAcc_fifo : (clearAcc s).fifo = s.fifo := rfl
@[simp] theorem clearAcc_tx : (clearAcc s).tx = s.tx := rfl
@[simp] theorem clearAcc_trData : (clearAcc s).trData = s.trData := rfl
@[simp] theorem clearAcc_trClk : (clearAcc s).trClk = s.trClk := rfl
@[simp] theorem clearAcc_portCycles : (clearAcc s).portCycles = s.portCycles := rfl
@[simp] theorem clearAcc_debugMode : (clearAcc s).debugMode = s.debugMode := rfl
@[simp] theorem clearAcc_probeConnected : (clearAcc s).probeConnected = s.probeConnected := rfl
@[simp] theorem clearAcc_bus : (clearAcc s).bus = s.bus := rfl
@[simp] theorem clearAcc_curPc : (clearAcc s).curPc = s.curPc := rfl
@[simp] theorem clearAcc_curNcc : (clearAcc s).curNcc = s.curNcc := rfl
@[simp] theorem clearAcc_latchedEn : (clearAcc s).latchedEn = s.latchedEn := rfl
@[simp] theorem clearAcc_readData : (clearAcc s).readData = s.readData := rfl
@[simp] theorem clearAcc_events : (clearAcc s).events = s.events := rfl
@[simp] theorem clearAcc_receiver : (clearAcc s).receiver = s.receiver := rfl
@[simp] theorem clearAcc_reader : (clearAcc s).reader = s.reader := rfl
@[simp] theorem clearAcc_drawIndex : (clearAcc s).drawIndex = s.drawIndex := rfl
@[simp] theorem clearAcc_resetCount : (clearAcc s).resetCount = s.resetCount := rfl

/-! ### storeWord -/

@[simp] theorem storeWord_params (w : TraceWord) : (storeWord w s).params = s.params := rfl
@[simp] theorem storeWord_ifctl (w : TraceWord) : (storeWord w s).ifctl = s.ifctl := rfl
@[simp] theorem storeWord_rdpAddr (w : TraceWord) : (storeWord w s).rdpAddr = s.rdpAddr := rfl
@[simp] theorem storeWord_wrpAddr (w : TraceWord) : (storeWord w s).wrpAddr = advance s.params s.wrpAddr := rfl
@[simp] theorem storeWord_wrpWrap (w : TraceWord) : (storeWord w s).wrpWrap = wrapAfter (decide (s.wrpAddr.toNat = tmemTop s.params)) s.wrpWrap := rfl
@[simp] theorem storeWord_itrig (w : TraceWord) : (storeWord w s).itrig = s.itrig := rfl
@[simp] theorem storeWord_dtrig (w : TraceWord) : (storeWord w s).dtrig = s.dtrig := rfl
@[simp] theorem storeWord_utd1 (w : TraceWord) : (storeWord w s).utd1 = s.utd1 := rfl
@[simp] theorem storeWord_utd2 (w : TraceWord) : (storeWord w s).utd2 = s.utd2 := rfl
@[simp] theorem storeWord_tmem (w : TraceWord) : (storeWord w s).tmem = memWriteWord s.wrpAddr.toNat w s.tmem := rfl
@[simp] theorem storeWord_acc (w : TraceWord) : (storeWord w s).acc = s.acc := rfl
@[simp] theorem storeWord_firstStart (w : TraceWord) : (storeWord w s).firstStart = s.firstStart := rfl
@[simp] theorem storeWord_syncCtr (w : TraceWord) : (storeWord w s).syncCtr = s.syncCtr := rfl
@[simp] theorem storeWord_dcyc (w : TraceWord) : (storeWord w s).dcyc = s.dcyc := rfl
@[simp] theorem storeWord_lastPc (w : TraceWord) : (storeWord w s).lastPc = s.lastPc := rfl
@[simp] theorem storeWord_lastNcc (w : TraceWord) : (storeWord w s).lastNcc = s.lastNcc := rfl
@[simp] theorem storeWord_needFullPc (w : TraceWord) : (storeWord w s).needFullPc = s.needFullPc := rfl
@[simp] theorem storeWord_discont (w : TraceWord) : (storeWord w s).discont = s.discont := rfl
@[simp] theorem storeWord_fifo (w : TraceWord) : (storeWord w s).fifo = s.fifo := rfl
@[simp] theorem storeWord_tx (w : TraceWord) : (storeWord w s).tx = s.tx := rfl
@[simp] theorem storeWord_trData (w : TraceWord) : (storeWord w s).trData = s.trData := rfl
@[simp] theorem storeWord_trClk (w : TraceWord) : (storeWord w s).trClk = s.trClk := rfl
@[simp] theorem storeWord_portCycles (w : TraceWord) : (storeWord w s).portCycles = s.portCycles := rfl
@[simp] theorem storeWord_debugMode (w : TraceWord) : (storeWord w s).debugMode = s.debugMode := rfl
@[simp] theorem storeWord_probeConnected (w : TraceWord) : (storeWord w s).probeConnected = s.probeConnected := rfl
@[simp] theorem storeWord_bus (w : TraceWord) : (storeWord w s).bus = s.bus := rfl
@[simp] theorem storeWord_curPc (w : TraceWord) : (storeWord w s).curPc = s.curPc := rfl
@[simp] theorem storeWord_curNcc (w : TraceWord) : (storeWord w s).curNcc = s.curNcc := rfl
@[simp] theorem storeWord_latchedEn (w : TraceWord) : (storeWord w s).latchedEn = s.latchedEn := rfl
@[simp] theorem storeWord_readData (w : TraceWord) : (storeWord w s).readData = s.readData := rfl
@[simp] theorem storeWord_events (w : TraceWord) : (storeWord w s).events = s.events := rfl
@[simp] theorem storeWord_receiver (w : TraceWord) : (storeWord w s).receiver = s.receiver := rfl
@[simp] theorem storeWord_reader (w : TraceWord) : (storeWord w s).reader = s.reader := rfl
@[simp] theorem storeWord_drawIndex (w : TraceWord) : (storeWord w s).drawIndex = s.drawIndex := rfl
@[simp] theorem storeWord_resetCount (w : TraceWord) : (storeWord w s).resetCount = s.resetCount := rfl

/-! ### overflow -/

@[simp] theorem overflow_params : (overflow s).params = s.params := rfl
@[simp] theorem overflow_ifctl : (overflow s).ifctl = s.ifctl := rfl
@[simp] theorem overflow_rdpAddr : (overflow s).rdpAddr = s.rdpAddr := rfl
@[simp] theorem overflow_wrpAddr : (overflow s).wrpAddr = s.wrpAddr := rfl
@[simp] theorem overflow_wrpWrap : (overflow s).wrpWrap = s.wrpWrap := rfl
@[simp] theorem overflow_itrig : (overflow s).itrig = s.itrig := rfl
@[simp] theorem overflow_dtrig : (overflow s).dtrig = s.dtrig := rfl
@[simp] theorem overflow_utd1 : (overflow s).utd1 = s.utd1 := rfl
@[simp] theorem overflow_utd2 : (overflow s).utd2 = s.utd2 := rfl
@[simp] theorem overflow_tmem : (overflow s).tmem = s.tmem := rfl
@[simp] theorem overflow_acc : (overflow s).acc = [] := rfl
@[simp] theorem overflow_firstStart : (overflow s).firstStart = none := rfl
@[simp] theorem overflow_syncCtr : (overflow s).syncCtr = s.syncCtr := rfl
@[simp] theorem overflow_dcyc : (overflow s).dcyc = s.dcyc := rfl
@[simp] theorem overflow_lastPc : (overflow s).lastPc = s.lastPc := rfl
@[simp] theorem overflow_lastNcc : (overflow s).lastNcc = s.lastNcc := rfl
@[simp] theorem overflow_needFullPc : (overflow s).needFullPc = true := rfl
@[simp] theorem overflow_discont : (overflow s).discont = true := rfl
@[simp] theorem overflow_fifo : (overflow s).fifo = dropWords (Config.draws s.drawIndex).drop 0 s.fifo := rfl
@[simp] theorem overflow_tx : (overflow s).tx = s.tx := rfl
@[simp] theorem overflow_trData : (overflow s).trData = s.trData := rfl
@[simp] theorem overflow_trClk : (overflow s).trClk = s.trClk := rfl
@[simp] theorem overflow_portCycles : (overflow s).portCycles = s.portCycles := rfl
@[simp] theorem overflow_debugMode : (overflow s).debugMode = s.debugMode := rfl
@[simp] theorem overflow_probeConnected : (overflow s).probeConnected = s.probeConnected := rfl
@[simp] theorem overflow_bus : (overflow s).bus = s.bus := rfl
@[simp] theorem overflow_curPc : (overflow s).curPc = s.curPc := rfl
@[simp] theorem overflow_curNcc : (overflow s).curNcc = s.curNcc := rfl
@[simp] theorem overflow_latchedEn : (overflow s).latchedEn = s.latchedEn := rfl
@[simp] theorem overflow_readData : (overflow s).readData = s.readData := rfl
@[simp] theorem overflow_events : (overflow s).events = s.events := rfl
@[simp] theorem overflow_receiver : (overflow s).receiver = s.receiver := rfl
@[simp] theorem overflow_reader : (overflow s).reader = s.reader := rfl
@[simp] theorem overflow_drawIndex : (overflow s).drawIndex = s.drawIndex + 1 := rfl
@[simp] theorem overflow_resetCount : (overflow s).resetCount = s.resetCount := rfl

/-! ### noteTraced -/

@[simp] theorem noteTraced_params : (noteTraced s).params = s.params := rfl
@[simp] theorem noteTraced_ifctl : (noteTraced s).ifctl = s.ifctl := rfl
@[simp] theorem noteTraced_rdpAddr : (noteTraced s).rdpAddr = s.rdpAddr := rfl
@[simp] theorem noteTraced_wrpAddr : (noteTraced s).wrpAddr = s.wrpAddr := rfl
@[simp] theorem noteTraced_wrpWrap : (noteTraced s).wrpWrap = s.wrpWrap := rfl
@[simp] theorem noteTraced_itrig : (noteTraced s).itrig = s.itrig := rfl
@[simp] theorem noteTraced_dtrig : (noteTraced s).dtrig = s.dtrig := rfl
@[simp] theorem noteTraced_utd1 : (noteTraced s).utd1 = s.utd1 := rfl
@[simp] theorem noteTraced_utd2 : (noteTraced s).utd2 = s.utd2 := rfl
@[simp] theorem noteTraced_tmem : (noteTraced s).tmem = s.tmem := rfl
@[simp] theorem noteTraced_acc : (noteTraced s).acc = s.acc := rfl
@[simp] theorem noteTraced_firstStart : (noteTraced s).firstStart = s.firstStart := rfl
@[simp] theorem noteTraced_syncCtr : (noteTraced s).syncCtr = s.syncCtr := rfl
@[simp] theorem noteTraced_dcyc : (noteTraced s).dcyc = s.dcyc := rfl
@[simp] theorem noteTraced_lastPc : (noteTraced s).lastPc = s.curPc := rfl
@[simp] theorem noteTraced_lastNcc : (noteTraced s).lastNcc = s.curNcc := rfl
@[simp] theorem noteTraced_needFullPc : (noteTraced s).needFullPc = false := rfl
@[simp] theorem noteTraced_discont : (noteTraced s).discont = s.discont := rfl
@[simp] theorem noteTraced_fifo : (noteTraced s).fifo = s.fifo := rfl
@[simp] theorem noteTraced_tx : (noteTraced s).tx = s.tx := rfl
@[simp] theorem noteTraced_trData : (noteTraced s).trData = s.trData := rfl
@[simp] theorem noteTraced_trClk : (noteTraced s).trClk = s.trClk := rfl
@[simp] theorem noteTraced_portCycles : (noteTraced s).portCycles = s.portCycles := rfl
@[simp] theorem noteTraced_debugMode : (noteTraced s).debugMode = s.debugMode := rfl
@[simp] theorem noteTraced_probeConnected : (noteTraced s).probeConnected = s.probeConnected := rfl
@[simp] theorem noteTraced_bus : (noteTraced s).bus = s.bus := rfl
@[simp] theorem noteTraced_curPc : (noteTraced s).curPc = s.curPc := rfl
@[simp] theorem noteTraced_curNcc : (noteTraced s).curNcc = s.curNcc := rfl
@[simp] theorem noteTraced_latchedEn : (noteTraced s).latchedEn = s.latchedEn := rfl
@[simp] theorem noteTraced_readData : (noteTraced s).readData = s.readData := rfl
@[simp] theorem noteTraced_events : (noteTraced s).events = s.events := rfl
@[simp] theorem noteTraced_receiver : (noteTraced s).receiver = s.receiver := rfl
@[simp] theorem noteTraced_reader : (noteTraced s).reader = s.reader := rfl
@[simp] theorem noteTraced_drawIndex : (noteTraced s).drawIndex = s.drawIndex := rfl
@[simp] theorem noteTraced_resetCount : (noteTraced s).resetCount = s.resetCount := rfl

/-! ### noteResumed -/

@[simp] theorem noteResumed_params : (noteResumed s).params = s.params := rfl
@[simp] theorem noteResumed_ifctl : (noteResumed s).ifctl = s.ifctl := rfl
@[simp] theorem noteResumed_rdpAddr : (noteResumed s).rdpAddr = s.rdpAddr := rfl
@[simp] theorem noteResumed_wrpAddr : (noteResumed s).wrpAddr = s.wrpAddr := rfl
@[simp] theorem noteResumed_wrpWrap : (noteResumed s).wrpWrap = s.wrpWrap := rfl
@[simp] theorem noteResumed_itrig : (noteResumed s).itrig = s.itrig := rfl
@[simp] theorem noteResumed_dtrig : (noteResumed s).dtrig = s.dtrig := rfl
@[simp] theorem noteResumed_utd1 : (noteResumed s).utd1 = s.utd1 := rfl
@[simp] theorem noteResumed_utd2 : (noteResumed s).utd2 = s.utd2 := rfl
@[simp] theorem noteResumed_tmem : (noteResumed s).tmem = s.tmem := rfl
@[simp] theorem noteResumed_acc : (noteResumed s).acc = s.acc := rfl
@[simp] theorem noteResumed_firstStart : (noteResumed s).firstStart = s.firstStart := rfl
@[simp] theorem noteResumed_syncCtr : (noteResumed s).syncCtr = s.syncCtr := rfl
@[simp] theorem noteResumed_dcyc : (noteResumed s).dcyc = s.dcyc := rfl
@[simp] theorem noteResumed_lastPc : (noteResumed s).lastPc = s.lastPc := rfl
@[simp] theorem noteResumed_lastNcc : (noteResumed s).lastNcc = s.lastNcc := rfl
@[simp] theorem noteResumed_needFullPc : (noteResumed s).needFullPc = true := rfl
@[simp] theorem noteResumed_discont : (noteResumed s).discont = false := rfl
@[simp] theorem noteResumed_fifo : (noteResumed s).fifo = s.fifo := rfl
@[simp] theorem noteResumed_tx : (noteResumed s).tx = s.tx := rfl
@[simp] theorem noteResumed_trData : (noteResumed s).trData = s.trData := rfl
@[simp] theorem noteResumed_trClk : (noteResumed s).trClk = s.trClk := rfl
@[simp] theorem noteResumed_portCycles : (noteResumed s).portCycles = s.portCycles := rfl
@[simp] theorem noteResumed_debugMode : (noteResumed s).debugMode = s.debugMode := rfl
@[simp] theorem noteResumed_probeConnected : (noteResumed s).probeConnected = s.probeConnected := rfl
@[simp] theorem noteResumed_bus : (noteResumed s).bus = s.bus := rfl
@[simp] theorem noteResumed_curPc : (noteResumed s).curPc = s.curPc := rfl
@[simp] theorem noteResumed_curNcc : (noteResumed s).curNcc = s.curNcc := rfl
@[simp] theorem noteResumed_latchedEn : (noteResumed s).latchedEn = s.latchedEn := rfl
@[simp] theorem noteResumed_readData : (noteResumed s).readData = s.readData := rfl
@[simp] theorem noteResumed_events : (noteResumed s).events = s.events := rfl
@[simp] theorem noteResumed_receiver : (noteResumed s).receiver = s.receiver := rfl
@[simp] theorem noteResumed_reader : (noteResumed s).reader = s.reader := rfl
@[simp] theorem noteResumed_drawIndex : (noteResumed s).drawIndex = s.drawIndex := rfl
@[simp] theorem noteResumed_resetCount : (noteResumed s).resetCount = s.resetCount := rfl

/-! ### noteResumedSpecial -/

@[simp] theorem noteResumedSpecial_params : (noteResumedSpecial s).params = s.params := rfl
@[simp] theorem noteResumedSpecial_ifctl : (noteResumedSpecial s).ifctl = s.ifctl := rfl
@[simp] theorem noteResumedSpecial_rdpAddr : (noteResumedSpecial s).rdpAddr = s.rdpAddr := rfl
@[simp] theorem noteResumedSpecial_wrpAddr : (noteResumedSpecial s).wrpAddr = s.wrpAddr := rfl
@[simp] theorem noteResumedSpecial_wrpWrap : (noteResumedSpecial s).wrpWrap = s.wrpWrap := rfl
@[simp] theorem noteResumedSpecial_itrig : (noteResumedSpecial s).itrig = s.itrig := rfl
@[simp] theorem noteResumedSpecial_dtrig : (noteResumedSpecial s).dtrig = s.dtrig := rfl
@[simp] theorem noteResumedSpecial_utd1 : (noteResumedSpecial s).utd1 = s.utd1 := rfl
@[simp] theorem noteResumedSpecial_utd2 : (noteResumedSpecial s).utd2 = s.utd2 := rfl
@[simp] theorem noteResumedSpecial_tmem : (noteResumedSpecial s).tmem = s.tmem := rfl
@[simp] theorem noteResumedSpecial_acc : (noteResumedSpecial s).acc = s.acc := rfl
@[simp] theorem noteResumedSpecial_firstStart : (noteResumedSpecial s).firstStart = s.firstStart := rfl
@[simp] theorem noteResumedSpecial_syncCtr : (noteResumedSpecial s).syncCtr = s.syncCtr := rfl
@[simp] theorem noteResumedSpecial_dcyc : (noteResumedSpecial s).dcyc = 0#10 := rfl
@[simp] theorem noteResumedSpecial_lastPc : (noteResumedSpecial s).lastPc = s.lastPc := rfl
@[simp] theorem noteResumedSpecial_lastNcc : (noteResumedSpecial s).lastNcc = s.lastNcc := rfl
@[simp] theorem noteResumedSpecial_needFullPc : (noteResumedSpecial s).needFullPc = s.needFullPc := rfl
@[simp] theorem noteResumedSpecial_discont : (noteResumedSpecial s).discont = false := rfl
@[simp] theorem noteResumedSpecial_fifo : (noteResumedSpecial s).fifo = s.fifo := rfl
@[simp] theorem noteResumedSpecial_tx : (noteResumedSpecial s).tx = s.tx := rfl
@[simp] theorem noteResumedSpecial_trData : (noteResumedSpecial s).trData = s.trData := rfl
@[simp] theorem noteResumedSpecial_trClk : (noteResumedSpecial s).trClk = s.trClk := rfl
@[simp] theorem noteResumedSpecial_portCycles : (noteResumedSpecial s).portCycles = s.portCycles := rfl
@[simp] theorem noteResumedSpecial_debugMode : (noteResumedSpecial s).debugMode = s.debugMode := rfl
@[simp] theorem noteResumedSpecial_probeConnected : (noteResumedSpecial s).probeConnected = s.probeConnected := rfl
@[simp] theorem noteResumedSpecial_bus : (noteResumedSpecial s).bus = s.bus := rfl
@[simp] theorem noteResumedSpecial_curPc : (noteResumedSpecial s).curPc = s.curPc := rfl
@[simp] theorem noteResumedSpecial_curNcc : (noteResumedSpecial s).curNcc = s.curNcc := rfl
@[simp] theorem noteResumedSpecial_latchedEn : (noteResumedSpecial s).latchedEn = s.latchedEn := rfl
@[simp] theorem noteResumedSpecial_readData : (noteResumedSpecial s).readData = s.readData := rfl
@[simp] theorem noteResumedSpecial_events : (noteResumedSpecial s).events = s.events := rfl
@[simp] theorem noteResumedSpecial_receiver : (noteResumedSpecial s).receiver = s.receiver := rfl
@[simp] theorem noteResumedSpecial_reader : (noteResumedSpecial s).reader = s.reader := rfl
@[simp] theorem noteResumedSpecial_drawIndex : (noteResumedSpecial s).drawIndex = s.drawIndex := rfl
@[simp] theorem noteResumedSpecial_resetCount : (noteResumedSpecial s).resetCount = s.resetCount := rfl

/-! ### traceStart -/

@[simp] theorem traceStart_params (d : Config.Draws) : (traceStart d s).params = s.params := rfl
@[simp] theorem traceStart_ifctl (d : Config.Draws) : (traceStart d s).ifctl = s.ifctl := rfl
@[simp] theorem traceStart_rdpAddr (d : Config.Draws) : (traceStart d s).rdpAddr = s.rdpAddr := rfl
@[simp] theorem traceStart_wrpAddr (d : Config.Draws) : (traceStart d s).wrpAddr = s.wrpAddr := rfl
@[simp] theorem traceStart_wrpWrap (d : Config.Draws) : (traceStart d s).wrpWrap = s.wrpWrap := rfl
@[simp] theorem traceStart_itrig (d : Config.Draws) : (traceStart d s).itrig = s.itrig := rfl
@[simp] theorem traceStart_dtrig (d : Config.Draws) : (traceStart d s).dtrig = s.dtrig := rfl
@[simp] theorem traceStart_utd1 (d : Config.Draws) : (traceStart d s).utd1 = s.utd1 := rfl
@[simp] theorem traceStart_utd2 (d : Config.Draws) : (traceStart d s).utd2 = s.utd2 := rfl
@[simp] theorem traceStart_tmem (d : Config.Draws) : (traceStart d s).tmem = s.tmem := rfl
@[simp] theorem traceStart_acc (d : Config.Draws) : (traceStart d s).acc = s.acc := rfl
@[simp] theorem traceStart_firstStart (d : Config.Draws) : (traceStart d s).firstStart = s.firstStart := rfl
@[simp] theorem traceStart_syncCtr (d : Config.Draws) : (traceStart d s).syncCtr = 1 + d.syncPhase % syncPeriod s.ifctl := rfl
@[simp] theorem traceStart_dcyc (d : Config.Draws) : (traceStart d s).dcyc = BitVec.ofNat 10 (d.dcycPhase % 1023) := rfl
@[simp] theorem traceStart_lastPc (d : Config.Draws) : (traceStart d s).lastPc = s.lastPc := rfl
@[simp] theorem traceStart_lastNcc (d : Config.Draws) : (traceStart d s).lastNcc = s.lastNcc := rfl
@[simp] theorem traceStart_needFullPc (d : Config.Draws) : (traceStart d s).needFullPc = true := rfl
@[simp] theorem traceStart_discont (d : Config.Draws) : (traceStart d s).discont = s.discont := rfl
@[simp] theorem traceStart_fifo (d : Config.Draws) : (traceStart d s).fifo = s.fifo := rfl
@[simp] theorem traceStart_tx (d : Config.Draws) : (traceStart d s).tx = s.tx := rfl
@[simp] theorem traceStart_trData (d : Config.Draws) : (traceStart d s).trData = s.trData := rfl
@[simp] theorem traceStart_trClk (d : Config.Draws) : (traceStart d s).trClk = s.trClk := rfl
@[simp] theorem traceStart_portCycles (d : Config.Draws) : (traceStart d s).portCycles = s.portCycles := rfl
@[simp] theorem traceStart_debugMode (d : Config.Draws) : (traceStart d s).debugMode = s.debugMode := rfl
@[simp] theorem traceStart_probeConnected (d : Config.Draws) : (traceStart d s).probeConnected = s.probeConnected := rfl
@[simp] theorem traceStart_bus (d : Config.Draws) : (traceStart d s).bus = s.bus := rfl
@[simp] theorem traceStart_curPc (d : Config.Draws) : (traceStart d s).curPc = s.curPc := rfl
@[simp] theorem traceStart_curNcc (d : Config.Draws) : (traceStart d s).curNcc = s.curNcc := rfl
@[simp] theorem traceStart_latchedEn (d : Config.Draws) : (traceStart d s).latchedEn = s.latchedEn := rfl
@[simp] theorem traceStart_readData (d : Config.Draws) : (traceStart d s).readData = s.readData := rfl
@[simp] theorem traceStart_events (d : Config.Draws) : (traceStart d s).events = s.events := rfl
@[simp] theorem traceStart_receiver (d : Config.Draws) : (traceStart d s).receiver = s.receiver := rfl
@[simp] theorem traceStart_reader (d : Config.Draws) : (traceStart d s).reader = s.reader := rfl
@[simp] theorem traceStart_drawIndex (d : Config.Draws) : (traceStart d s).drawIndex = s.drawIndex := rfl
@[simp] theorem traceStart_resetCount (d : Config.Draws) : (traceStart d s).resetCount = s.resetCount := rfl

/-! ### setEn -/

@[simp] theorem setEn_params (b : Bool) : (setEn b s).params = s.params := rfl
@[simp] theorem setEn_ifctl (b : Bool) : (setEn b s).ifctl = { s.ifctl with en := b } := rfl
@[simp] theorem setEn_rdpAddr (b : Bool) : (setEn b s).rdpAddr = s.rdpAddr := rfl
@[simp] theorem setEn_wrpAddr (b : Bool) : (setEn b s).wrpAddr = s.wrpAddr := rfl
@[simp] theorem setEn_wrpWrap (b : Bool) : (setEn b s).wrpWrap = s.wrpWrap := rfl
@[simp] theorem setEn_itrig (b : Bool) : (setEn b s).itrig = s.itrig := rfl
@[simp] theorem setEn_dtrig (b : Bool) : (setEn b s).dtrig = s.dtrig := rfl
@[simp] theorem setEn_utd1 (b : Bool) : (setEn b s).utd1 = s.utd1 := rfl
@[simp] theorem setEn_utd2 (b : Bool) : (setEn b s).utd2 = s.utd2 := rfl
@[simp] theorem setEn_tmem (b : Bool) : (setEn b s).tmem = s.tmem := rfl
@[simp] theorem setEn_acc (b : Bool) : (setEn b s).acc = s.acc := rfl
@[simp] theorem setEn_firstStart (b : Bool) : (setEn b s).firstStart = s.firstStart := rfl
@[simp] theorem setEn_syncCtr (b : Bool) : (setEn b s).syncCtr = s.syncCtr := rfl
@[simp] theorem setEn_dcyc (b : Bool) : (setEn b s).dcyc = s.dcyc := rfl
@[simp] theorem setEn_lastPc (b : Bool) : (setEn b s).lastPc = s.lastPc := rfl
@[simp] theorem setEn_lastNcc (b : Bool) : (setEn b s).lastNcc = s.lastNcc := rfl
@[simp] theorem setEn_needFullPc (b : Bool) : (setEn b s).needFullPc = s.needFullPc := rfl
@[simp] theorem setEn_discont (b : Bool) : (setEn b s).discont = s.discont := rfl
@[simp] theorem setEn_fifo (b : Bool) : (setEn b s).fifo = s.fifo := rfl
@[simp] theorem setEn_tx (b : Bool) : (setEn b s).tx = s.tx := rfl
@[simp] theorem setEn_trData (b : Bool) : (setEn b s).trData = s.trData := rfl
@[simp] theorem setEn_trClk (b : Bool) : (setEn b s).trClk = s.trClk := rfl
@[simp] theorem setEn_portCycles (b : Bool) : (setEn b s).portCycles = s.portCycles := rfl
@[simp] theorem setEn_debugMode (b : Bool) : (setEn b s).debugMode = s.debugMode := rfl
@[simp] theorem setEn_probeConnected (b : Bool) : (setEn b s).probeConnected = s.probeConnected := rfl
@[simp] theorem setEn_bus (b : Bool) : (setEn b s).bus = s.bus := rfl
@[simp] theorem setEn_curPc (b : Bool) : (setEn b s).curPc = s.curPc := rfl
@[simp] theorem setEn_curNcc (b : Bool) : (setEn b s).curNcc = s.curNcc := rfl
@[simp] theorem setEn_latchedEn (b : Bool) : (setEn b s).latchedEn = s.latchedEn := rfl
@[simp] theorem setEn_readData (b : Bool) : (setEn b s).readData = s.readData := rfl
@[simp] theorem setEn_events (b : Bool) : (setEn b s).events = s.events := rfl
@[simp] theorem setEn_receiver (b : Bool) : (setEn b s).receiver = s.receiver := rfl
@[simp] theorem setEn_reader (b : Bool) : (setEn b s).reader = s.reader := rfl
@[simp] theorem setEn_drawIndex (b : Bool) : (setEn b s).drawIndex = s.drawIndex := rfl
@[simp] theorem setEn_resetCount (b : Bool) : (setEn b s).resetCount = s.resetCount := rfl

/-! ### withIfctl -/

@[simp] theorem withIfctl_params (r : Ifctl) : (withIfctl r s).params = s.params := rfl
@[simp] theorem withIfctl_ifctl (r : Ifctl) : (withIfctl r s).ifctl = r := rfl
@[simp] theorem withIfctl_rdpAddr (r : Ifctl) : (withIfctl r s).rdpAddr = s.rdpAddr := rfl
@[simp] theorem withIfctl_wrpAddr (r : Ifctl) : (withIfctl r s).wrpAddr = s.wrpAddr := rfl
@[simp] theorem withIfctl_wrpWrap (r : Ifctl) : (withIfctl r s).wrpWrap = s.wrpWrap := rfl
@[simp] theorem withIfctl_itrig (r : Ifctl) : (withIfctl r s).itrig = s.itrig := rfl
@[simp] theorem withIfctl_dtrig (r : Ifctl) : (withIfctl r s).dtrig = s.dtrig := rfl
@[simp] theorem withIfctl_utd1 (r : Ifctl) : (withIfctl r s).utd1 = s.utd1 := rfl
@[simp] theorem withIfctl_utd2 (r : Ifctl) : (withIfctl r s).utd2 = s.utd2 := rfl
@[simp] theorem withIfctl_tmem (r : Ifctl) : (withIfctl r s).tmem = s.tmem := rfl
@[simp] theorem withIfctl_acc (r : Ifctl) : (withIfctl r s).acc = s.acc := rfl
@[simp] theorem withIfctl_firstStart (r : Ifctl) : (withIfctl r s).firstStart = s.firstStart := rfl
@[simp] theorem withIfctl_syncCtr (r : Ifctl) : (withIfctl r s).syncCtr = s.syncCtr := rfl
@[simp] theorem withIfctl_dcyc (r : Ifctl) : (withIfctl r s).dcyc = s.dcyc := rfl
@[simp] theorem withIfctl_lastPc (r : Ifctl) : (withIfctl r s).lastPc = s.lastPc := rfl
@[simp] theorem withIfctl_lastNcc (r : Ifctl) : (withIfctl r s).lastNcc = s.lastNcc := rfl
@[simp] theorem withIfctl_needFullPc (r : Ifctl) : (withIfctl r s).needFullPc = s.needFullPc := rfl
@[simp] theorem withIfctl_discont (r : Ifctl) : (withIfctl r s).discont = s.discont := rfl
@[simp] theorem withIfctl_fifo (r : Ifctl) : (withIfctl r s).fifo = s.fifo := rfl
@[simp] theorem withIfctl_tx (r : Ifctl) : (withIfctl r s).tx = s.tx := rfl
@[simp] theorem withIfctl_trData (r : Ifctl) : (withIfctl r s).trData = s.trData := rfl
@[simp] theorem withIfctl_trClk (r : Ifctl) : (withIfctl r s).trClk = s.trClk := rfl
@[simp] theorem withIfctl_portCycles (r : Ifctl) : (withIfctl r s).portCycles = s.portCycles := rfl
@[simp] theorem withIfctl_debugMode (r : Ifctl) : (withIfctl r s).debugMode = s.debugMode := rfl
@[simp] theorem withIfctl_probeConnected (r : Ifctl) : (withIfctl r s).probeConnected = s.probeConnected := rfl
@[simp] theorem withIfctl_bus (r : Ifctl) : (withIfctl r s).bus = s.bus := rfl
@[simp] theorem withIfctl_curPc (r : Ifctl) : (withIfctl r s).curPc = s.curPc := rfl
@[simp] theorem withIfctl_curNcc (r : Ifctl) : (withIfctl r s).curNcc = s.curNcc := rfl
@[simp] theorem withIfctl_latchedEn (r : Ifctl) : (withIfctl r s).latchedEn = s.latchedEn := rfl
@[simp] theorem withIfctl_readData (r : Ifctl) : (withIfctl r s).readData = s.readData := rfl
@[simp] theorem withIfctl_events (r : Ifctl) : (withIfctl r s).events = s.events := rfl
@[simp] theorem withIfctl_receiver (r : Ifctl) : (withIfctl r s).receiver = s.receiver := rfl
@[simp] theorem withIfctl_reader (r : Ifctl) : (withIfctl r s).reader = s.reader := rfl
@[simp] theorem withIfctl_drawIndex (r : Ifctl) : (withIfctl r s).drawIndex = s.drawIndex := rfl
@[simp] theorem withIfctl_resetCount (r : Ifctl) : (withIfctl r s).resetCount = s.resetCount := rfl

/-! ### offer -/

@[simp] theorem offer_params (ms : List Instr) : (offer ms s).params = s.params := rfl
@[simp] theorem offer_ifctl (ms : List Instr) : (offer ms s).ifctl = s.ifctl := rfl
@[simp] theorem offer_rdpAddr (ms : List Instr) : (offer ms s).rdpAddr = s.rdpAddr := rfl
@[simp] theorem offer_wrpAddr (ms : List Instr) : (offer ms s).wrpAddr = s.wrpAddr := rfl
@[simp] theorem offer_wrpWrap (ms : List Instr) : (offer ms s).wrpWrap = s.wrpWrap := rfl
@[simp] theorem offer_itrig (ms : List Instr) : (offer ms s).itrig = s.itrig := rfl
@[simp] theorem offer_dtrig (ms : List Instr) : (offer ms s).dtrig = s.dtrig := rfl
@[simp] theorem offer_utd1 (ms : List Instr) : (offer ms s).utd1 = s.utd1 := rfl
@[simp] theorem offer_utd2 (ms : List Instr) : (offer ms s).utd2 = s.utd2 := rfl
@[simp] theorem offer_tmem (ms : List Instr) : (offer ms s).tmem = s.tmem := rfl
@[simp] theorem offer_acc (ms : List Instr) : (offer ms s).acc = s.acc := rfl
@[simp] theorem offer_firstStart (ms : List Instr) : (offer ms s).firstStart = s.firstStart := rfl
@[simp] theorem offer_syncCtr (ms : List Instr) : (offer ms s).syncCtr = s.syncCtr := rfl
@[simp] theorem offer_dcyc (ms : List Instr) : (offer ms s).dcyc = s.dcyc := rfl
@[simp] theorem offer_lastPc (ms : List Instr) : (offer ms s).lastPc = s.lastPc := rfl
@[simp] theorem offer_lastNcc (ms : List Instr) : (offer ms s).lastNcc = s.lastNcc := rfl
@[simp] theorem offer_needFullPc (ms : List Instr) : (offer ms s).needFullPc = s.needFullPc := rfl
@[simp] theorem offer_discont (ms : List Instr) : (offer ms s).discont = s.discont := rfl
@[simp] theorem offer_fifo (ms : List Instr) : (offer ms s).fifo = s.fifo := rfl
@[simp] theorem offer_tx (ms : List Instr) : (offer ms s).tx = s.tx := rfl
@[simp] theorem offer_trData (ms : List Instr) : (offer ms s).trData = s.trData := rfl
@[simp] theorem offer_trClk (ms : List Instr) : (offer ms s).trClk = s.trClk := rfl
@[simp] theorem offer_portCycles (ms : List Instr) : (offer ms s).portCycles = s.portCycles := rfl
@[simp] theorem offer_debugMode (ms : List Instr) : (offer ms s).debugMode = s.debugMode := rfl
@[simp] theorem offer_probeConnected (ms : List Instr) : (offer ms s).probeConnected = s.probeConnected := rfl
@[simp] theorem offer_bus (ms : List Instr) : (offer ms s).bus = s.bus ++ ms := rfl
@[simp] theorem offer_curPc (ms : List Instr) : (offer ms s).curPc = s.curPc := rfl
@[simp] theorem offer_curNcc (ms : List Instr) : (offer ms s).curNcc = s.curNcc := rfl
@[simp] theorem offer_latchedEn (ms : List Instr) : (offer ms s).latchedEn = s.latchedEn := rfl
@[simp] theorem offer_readData (ms : List Instr) : (offer ms s).readData = s.readData := rfl
@[simp] theorem offer_events (ms : List Instr) : (offer ms s).events = s.events := rfl
@[simp] theorem offer_receiver (ms : List Instr) : (offer ms s).receiver = s.receiver := rfl
@[simp] theorem offer_reader (ms : List Instr) : (offer ms s).reader = s.reader := rfl
@[simp] theorem offer_drawIndex (ms : List Instr) : (offer ms s).drawIndex = s.drawIndex := rfl
@[simp] theorem offer_resetCount (ms : List Instr) : (offer ms s).resetCount = s.resetCount := rfl

/-! ### tookDraw -/

@[simp] theorem tookDraw_params : (tookDraw s).params = s.params := rfl
@[simp] theorem tookDraw_ifctl : (tookDraw s).ifctl = s.ifctl := rfl
@[simp] theorem tookDraw_rdpAddr : (tookDraw s).rdpAddr = s.rdpAddr := rfl
@[simp] theorem tookDraw_wrpAddr : (tookDraw s).wrpAddr = s.wrpAddr := rfl
@[simp] theorem tookDraw_wrpWrap : (tookDraw s).wrpWrap = s.wrpWrap := rfl
@[simp] theorem tookDraw_itrig : (tookDraw s).itrig = s.itrig := rfl
@[simp] theorem tookDraw_dtrig : (tookDraw s).dtrig = s.dtrig := rfl
@[simp] theorem tookDraw_utd1 : (tookDraw s).utd1 = s.utd1 := rfl
@[simp] theorem tookDraw_utd2 : (tookDraw s).utd2 = s.utd2 := rfl
@[simp] theorem tookDraw_tmem : (tookDraw s).tmem = s.tmem := rfl
@[simp] theorem tookDraw_acc : (tookDraw s).acc = s.acc := rfl
@[simp] theorem tookDraw_firstStart : (tookDraw s).firstStart = s.firstStart := rfl
@[simp] theorem tookDraw_syncCtr : (tookDraw s).syncCtr = s.syncCtr := rfl
@[simp] theorem tookDraw_dcyc : (tookDraw s).dcyc = s.dcyc := rfl
@[simp] theorem tookDraw_lastPc : (tookDraw s).lastPc = s.lastPc := rfl
@[simp] theorem tookDraw_lastNcc : (tookDraw s).lastNcc = s.lastNcc := rfl
@[simp] theorem tookDraw_needFullPc : (tookDraw s).needFullPc = s.needFullPc := rfl
@[simp] theorem tookDraw_discont : (tookDraw s).discont = s.discont := rfl
@[simp] theorem tookDraw_fifo : (tookDraw s).fifo = s.fifo := rfl
@[simp] theorem tookDraw_tx : (tookDraw s).tx = s.tx := rfl
@[simp] theorem tookDraw_trData : (tookDraw s).trData = s.trData := rfl
@[simp] theorem tookDraw_trClk : (tookDraw s).trClk = s.trClk := rfl
@[simp] theorem tookDraw_portCycles : (tookDraw s).portCycles = s.portCycles := rfl
@[simp] theorem tookDraw_debugMode : (tookDraw s).debugMode = s.debugMode := rfl
@[simp] theorem tookDraw_probeConnected : (tookDraw s).probeConnected = s.probeConnected := rfl
@[simp] theorem tookDraw_bus : (tookDraw s).bus = s.bus := rfl
@[simp] theorem tookDraw_curPc : (tookDraw s).curPc = s.curPc := rfl
@[simp] theorem tookDraw_curNcc : (tookDraw s).curNcc = s.curNcc := rfl
@[simp] theorem tookDraw_latchedEn : (tookDraw s).latchedEn = s.latchedEn := rfl
@[simp] theorem tookDraw_readData : (tookDraw s).readData = s.readData := rfl
@[simp] theorem tookDraw_events : (tookDraw s).events = s.events := rfl
@[simp] theorem tookDraw_receiver : (tookDraw s).receiver = s.receiver := rfl
@[simp] theorem tookDraw_reader : (tookDraw s).reader = s.reader := rfl
@[simp] theorem tookDraw_drawIndex : (tookDraw s).drawIndex = s.drawIndex + 1 := rfl
@[simp] theorem tookDraw_resetCount : (tookDraw s).resetCount = s.resetCount := rfl

/-! ### advanceRead -/

@[simp] theorem advanceRead_params : (advanceRead s).params = s.params := rfl
@[simp] theorem advanceRead_ifctl : (advanceRead s).ifctl = s.ifctl := rfl
@[simp] theorem advanceRead_rdpAddr : (advanceRead s).rdpAddr = advance s.params s.rdpAddr := rfl
@[simp] theorem advanceRead_wrpAddr : (advanceRead s).wrpAddr = s.wrpAddr := rfl
@[simp] theorem advanceRead_wrpWrap : (advanceRead s).wrpWrap = s.wrpWrap := rfl
@[simp] theorem advanceRead_itrig : (advanceRead s).itrig = s.itrig := rfl
@[simp] theorem advanceRead_dtrig : (advanceRead s).dtrig = s.dtrig := rfl
@[simp] theorem advanceRead_utd1 : (advanceRead s).utd1 = s.utd1 := rfl
@[simp] theorem advanceRead_utd2 : (advanceRead s).utd2 = s.utd2 := rfl
@[simp] theorem advanceRead_tmem : (advanceRead s).tmem = s.tmem := rfl
@[simp] theorem advanceRead_acc : (advanceRead s).acc = s.acc := rfl
@[simp] theorem advanceRead_firstStart : (advanceRead s).firstStart = s.firstStart := rfl
@[simp] theorem advanceRead_syncCtr : (advanceRead s).syncCtr = s.syncCtr := rfl
@[simp] theorem advanceRead_dcyc : (advanceRead s).dcyc = s.dcyc := rfl
@[simp] theorem advanceRead_lastPc : (advanceRead s).lastPc = s.lastPc := rfl
@[simp] theorem advanceRead_lastNcc : (advanceRead s).lastNcc = s.lastNcc := rfl
@[simp] theorem advanceRead_needFullPc : (advanceRead s).needFullPc = s.needFullPc := rfl
@[simp] theorem advanceRead_discont : (advanceRead s).discont = s.discont := rfl
@[simp] theorem advanceRead_fifo : (advanceRead s).fifo = s.fifo := rfl
@[simp] theorem advanceRead_tx : (advanceRead s).tx = s.tx := rfl
@[simp] theorem advanceRead_trData : (advanceRead s).trData = s.trData := rfl
@[simp] theorem advanceRead_trClk : (advanceRead s).trClk = s.trClk := rfl
@[simp] theorem advanceRead_portCycles : (advanceRead s).portCycles = s.portCycles := rfl
@[simp] theorem advanceRead_debugMode : (advanceRead s).debugMode = s.debugMode := rfl
@[simp] theorem advanceRead_probeConnected : (advanceRead s).probeConnected = s.probeConnected := rfl
@[simp] theorem advanceRead_bus : (advanceRead s).bus = s.bus := rfl
@[simp] theorem advanceRead_curPc : (advanceRead s).curPc = s.curPc := rfl
@[simp] theorem advanceRead_curNcc : (advanceRead s).curNcc = s.curNcc := rfl
@[simp] theorem advanceRead_latchedEn : (advanceRead s).latchedEn = s.latchedEn := rfl
@[simp] theorem advanceRead_readData : (advanceRead s).readData = s.readData := rfl
@[simp] theorem advanceRead_events : (advanceRead s).events = s.events := rfl
@[simp] theorem advanceRead_receiver : (advanceRead s).receiver = s.receiver := rfl
@[simp] theorem advanceRead_reader : (advanceRead s).reader = s.reader := rfl
@[simp] theorem advanceRead_drawIndex : (advanceRead s).drawIndex = s.drawIndex := rfl
@[simp] theorem advanceRead_resetCount : (advanceRead s).resetCount = s.resetCount := rfl

/-! ### debugEnter -/

@[simp] theorem debugEnter_params : (debugEnter s).params = s.params := rfl
@[simp] theorem debugEnter_ifctl : (debugEnter s).ifctl = s.ifctl := rfl
@[simp] theorem debugEnter_rdpAddr : (debugEnter s).rdpAddr = s.rdpAddr := rfl
@[simp] theorem debugEnter_wrpAddr : (debugEnter s).wrpAddr = s.wrpAddr := rfl
@[simp] theorem debugEnter_wrpWrap : (debugEnter s).wrpWrap = s.wrpWrap := rfl
@[simp] theorem debugEnter_itrig : (debugEnter s).itrig = s.itrig := rfl
@[simp] theorem debugEnter_dtrig : (debugEnter s).dtrig = s.dtrig := rfl
@[simp] theorem debugEnter_utd1 : (debugEnter s).utd1 = s.utd1 := rfl
@[simp] theorem debugEnter_utd2 : (debugEnter s).utd2 = s.utd2 := rfl
@[simp] theorem debugEnter_tmem : (debugEnter s).tmem = s.tmem := rfl
@[simp] theorem debugEnter_acc : (debugEnter s).acc = s.acc := rfl
@[simp] theorem debugEnter_firstStart : (debugEnter s).firstStart = s.firstStart := rfl
@[simp] theorem debugEnter_syncCtr : (debugEnter s).syncCtr = s.syncCtr := rfl
@[simp] theorem debugEnter_dcyc : (debugEnter s).dcyc = s.dcyc := rfl
@[simp] theorem debugEnter_lastPc : (debugEnter s).lastPc = s.lastPc := rfl
@[simp] theorem debugEnter_lastNcc : (debugEnter s).lastNcc = s.lastNcc := rfl
@[simp] theorem debugEnter_needFullPc : (debugEnter s).needFullPc = s.needFullPc := rfl
@[simp] theorem debugEnter_discont : (debugEnter s).discont = s.discont := rfl
@[simp] theorem debugEnter_fifo : (debugEnter s).fifo = s.fifo := rfl
@[simp] theorem debugEnter_tx : (debugEnter s).tx = s.tx := rfl
@[simp] theorem debugEnter_trData : (debugEnter s).trData = s.trData := rfl
@[simp] theorem debugEnter_trClk : (debugEnter s).trClk = s.trClk := rfl
@[simp] theorem debugEnter_portCycles : (debugEnter s).portCycles = s.portCycles := rfl
@[simp] theorem debugEnter_debugMode : (debugEnter s).debugMode = true := rfl
@[simp] theorem debugEnter_probeConnected : (debugEnter s).probeConnected = s.probeConnected := rfl
@[simp] theorem debugEnter_bus : (debugEnter s).bus = s.bus := rfl
@[simp] theorem debugEnter_curPc : (debugEnter s).curPc = s.curPc := rfl
@[simp] theorem debugEnter_curNcc : (debugEnter s).curNcc = s.curNcc := rfl
@[simp] theorem debugEnter_latchedEn : (debugEnter s).latchedEn = s.latchedEn := rfl
@[simp] theorem debugEnter_readData : (debugEnter s).readData = s.readData := rfl
@[simp] theorem debugEnter_events : (debugEnter s).events = s.events := rfl
@[simp] theorem debugEnter_receiver : (debugEnter s).receiver = s.receiver := rfl
@[simp] theorem debugEnter_reader : (debugEnter s).reader = s.reader := rfl
@[simp] theorem debugEnter_drawIndex : (debugEnter s).drawIndex = s.drawIndex := rfl
@[simp] theorem debugEnter_resetCount : (debugEnter s).resetCount = s.resetCount := rfl

/-! ### slot -/

@[simp] theorem slot_params (n : BitVec 4) : (slot n s).params = s.params := rfl
@[simp] theorem slot_ifctl (n : BitVec 4) : (slot n s).ifctl = s.ifctl := rfl
@[simp] theorem slot_rdpAddr (n : BitVec 4) : (slot n s).rdpAddr = s.rdpAddr := rfl
@[simp] theorem slot_wrpAddr (n : BitVec 4) : (slot n s).wrpAddr = s.wrpAddr := rfl
@[simp] theorem slot_wrpWrap (n : BitVec 4) : (slot n s).wrpWrap = s.wrpWrap := rfl
@[simp] theorem slot_itrig (n : BitVec 4) : (slot n s).itrig = s.itrig := rfl
@[simp] theorem slot_dtrig (n : BitVec 4) : (slot n s).dtrig = s.dtrig := rfl
@[simp] theorem slot_utd1 (n : BitVec 4) : (slot n s).utd1 = s.utd1 := rfl
@[simp] theorem slot_utd2 (n : BitVec 4) : (slot n s).utd2 = s.utd2 := rfl
@[simp] theorem slot_tmem (n : BitVec 4) : (slot n s).tmem = s.tmem := rfl
@[simp] theorem slot_acc (n : BitVec 4) : (slot n s).acc = s.acc := rfl
@[simp] theorem slot_firstStart (n : BitVec 4) : (slot n s).firstStart = s.firstStart := rfl
@[simp] theorem slot_syncCtr (n : BitVec 4) : (slot n s).syncCtr = s.syncCtr := rfl
@[simp] theorem slot_dcyc (n : BitVec 4) : (slot n s).dcyc = s.dcyc := rfl
@[simp] theorem slot_lastPc (n : BitVec 4) : (slot n s).lastPc = s.lastPc := rfl
@[simp] theorem slot_lastNcc (n : BitVec 4) : (slot n s).lastNcc = s.lastNcc := rfl
@[simp] theorem slot_needFullPc (n : BitVec 4) : (slot n s).needFullPc = s.needFullPc := rfl
@[simp] theorem slot_discont (n : BitVec 4) : (slot n s).discont = s.discont := rfl
@[simp] theorem slot_fifo (n : BitVec 4) : (slot n s).fifo = s.fifo := rfl
@[simp] theorem slot_tx (n : BitVec 4) : (slot n s).tx = s.tx := rfl
@[simp] theorem slot_trData (n : BitVec 4) : (slot n s).trData = s.trData := rfl
@[simp] theorem slot_trClk (n : BitVec 4) : (slot n s).trClk = if s.probeConnected then !s.trClk else s.trClk := rfl
@[simp] theorem slot_portCycles (n : BitVec 4) : (slot n s).portCycles = s.portCycles + slotCycles s.ifctl := rfl
@[simp] theorem slot_debugMode (n : BitVec 4) : (slot n s).debugMode = s.debugMode := rfl
@[simp] theorem slot_probeConnected (n : BitVec 4) : (slot n s).probeConnected = s.probeConnected := rfl
@[simp] theorem slot_bus (n : BitVec 4) : (slot n s).bus = s.bus := rfl
@[simp] theorem slot_curPc (n : BitVec 4) : (slot n s).curPc = s.curPc := rfl
@[simp] theorem slot_curNcc (n : BitVec 4) : (slot n s).curNcc = s.curNcc := rfl
@[simp] theorem slot_latchedEn (n : BitVec 4) : (slot n s).latchedEn = s.latchedEn := rfl
@[simp] theorem slot_readData (n : BitVec 4) : (slot n s).readData = s.readData := rfl
@[simp] theorem slot_events (n : BitVec 4) : (slot n s).events = s.events := rfl
@[simp] theorem slot_receiver (n : BitVec 4) : (slot n s).receiver = if s.probeConnected then sample n s.receiver else missSlot s.receiver := rfl
@[simp] theorem slot_reader (n : BitVec 4) : (slot n s).reader = s.reader := rfl
@[simp] theorem slot_drawIndex (n : BitVec 4) : (slot n s).drawIndex = s.drawIndex := rfl
@[simp] theorem slot_resetCount (n : BitVec 4) : (slot n s).resetCount = s.resetCount := rfl

/-! ### drive -/

@[simp] theorem drive_params (tx : Option Tx) : (drive tx s).params = s.params := rfl
@[simp] theorem drive_ifctl (tx : Option Tx) : (drive tx s).ifctl = s.ifctl := rfl
@[simp] theorem drive_rdpAddr (tx : Option Tx) : (drive tx s).rdpAddr = s.rdpAddr := rfl
@[simp] theorem drive_wrpAddr (tx : Option Tx) : (drive tx s).wrpAddr = s.wrpAddr := rfl
@[simp] theorem drive_wrpWrap (tx : Option Tx) : (drive tx s).wrpWrap = s.wrpWrap := rfl
@[simp] theorem drive_itrig (tx : Option Tx) : (drive tx s).itrig = s.itrig := rfl
@[simp] theorem drive_dtrig (tx : Option Tx) : (drive tx s).dtrig = s.dtrig := rfl
@[simp] theorem drive_utd1 (tx : Option Tx) : (drive tx s).utd1 = s.utd1 := rfl
@[simp] theorem drive_utd2 (tx : Option Tx) : (drive tx s).utd2 = s.utd2 := rfl
@[simp] theorem drive_tmem (tx : Option Tx) : (drive tx s).tmem = s.tmem := rfl
@[simp] theorem drive_acc (tx : Option Tx) : (drive tx s).acc = s.acc := rfl
@[simp] theorem drive_firstStart (tx : Option Tx) : (drive tx s).firstStart = s.firstStart := rfl
@[simp] theorem drive_syncCtr (tx : Option Tx) : (drive tx s).syncCtr = s.syncCtr := rfl
@[simp] theorem drive_dcyc (tx : Option Tx) : (drive tx s).dcyc = s.dcyc := rfl
@[simp] theorem drive_lastPc (tx : Option Tx) : (drive tx s).lastPc = s.lastPc := rfl
@[simp] theorem drive_lastNcc (tx : Option Tx) : (drive tx s).lastNcc = s.lastNcc := rfl
@[simp] theorem drive_needFullPc (tx : Option Tx) : (drive tx s).needFullPc = s.needFullPc := rfl
@[simp] theorem drive_discont (tx : Option Tx) : (drive tx s).discont = s.discont := rfl
@[simp] theorem drive_fifo (tx : Option Tx) : (drive tx s).fifo = s.fifo := rfl
@[simp] theorem drive_tx (tx : Option Tx) : (drive tx s).tx = tx := rfl
@[simp] theorem drive_trData (tx : Option Tx) : (drive tx s).trData = portNibble tx := rfl
@[simp] theorem drive_trClk (tx : Option Tx) : (drive tx s).trClk = s.trClk := rfl
@[simp] theorem drive_portCycles (tx : Option Tx) : (drive tx s).portCycles = s.portCycles := rfl
@[simp] theorem drive_debugMode (tx : Option Tx) : (drive tx s).debugMode = s.debugMode := rfl
@[simp] theorem drive_probeConnected (tx : Option Tx) : (drive tx s).probeConnected = s.probeConnected := rfl
@[simp] theorem drive_bus (tx : Option Tx) : (drive tx s).bus = s.bus := rfl
@[simp] theorem drive_curPc (tx : Option Tx) : (drive tx s).curPc = s.curPc := rfl
@[simp] theorem drive_curNcc (tx : Option Tx) : (drive tx s).curNcc = s.curNcc := rfl
@[simp] theorem drive_latchedEn (tx : Option Tx) : (drive tx s).latchedEn = s.latchedEn := rfl
@[simp] theorem drive_readData (tx : Option Tx) : (drive tx s).readData = s.readData := rfl
@[simp] theorem drive_events (tx : Option Tx) : (drive tx s).events = s.events := rfl
@[simp] theorem drive_receiver (tx : Option Tx) : (drive tx s).receiver = s.receiver := rfl
@[simp] theorem drive_reader (tx : Option Tx) : (drive tx s).reader = s.reader := rfl
@[simp] theorem drive_drawIndex (tx : Option Tx) : (drive tx s).drawIndex = s.drawIndex := rfl
@[simp] theorem drive_resetCount (tx : Option Tx) : (drive tx s).resetCount = s.resetCount := rfl

end Sys2Proof.Machine
end

