-- ==== Sys2Proof/Laws/Memory.lean ====
section
/-! SUPPORT. Trace memory: what a write changes, and that the canonical form is kept. -/

namespace Sys2Proof.Machine

/-! ### One byte -/

theorem memLookup_memInsert (a : Nat) (b : Byte) (m : Memory) (x : Nat) :
    memLookup x (memInsert a b m) = if x = a then some b else memLookup x m := by
  induction m with
  | nil =>
    simp only [memInsert, memLookup]
    by_cases h : x = a
    · simp [h]
    · rw [if_neg (fun h' => h h'.symm), if_neg h]
  | cons c rest ih =>
    simp only [memInsert]
    split
    · simp only [memLookup]
      by_cases h : x = a
      · simp [h]
      · rw [if_neg (fun h' => h h'.symm), if_neg h]
    · split
      · rename_i heq
        simp only [memLookup, ← heq]
        by_cases h : x = a
        · simp [h]
        · rw [if_neg (fun h' => h h'.symm), if_neg h, if_neg (fun h' => h h'.symm)]
      · simp only [memLookup, ih]
        by_cases h : c.1 = x
        · rw [if_pos h, if_pos h, if_neg (by omega)]
        · rw [if_neg h, if_neg h]

theorem memory_wf_tail {c : Host.Cell} {m : Memory} (h : Memory.wf (c :: m) = true) : Memory.wf m = true := by
  cases m with
  | nil => rfl
  | cons d rest => simp only [Memory.wf, Bool.and_eq_true] at h; exact h.2

theorem memory_wf_head {c : Host.Cell} {m : Memory} (h : Memory.wf (c :: m) = true) : ∀ d ∈ m, c.1 < d.1 := by
  induction m generalizing c with
  | nil => simp
  | cons d rest ih =>
    simp only [Memory.wf, Bool.and_eq_true, decide_eq_true_eq] at h
    intro e he
    rcases List.mem_cons.mp he with rfl | he
    · exact h.1
    · exact lt_trans h.1 (ih h.2 e he)

theorem memory_wf_cons {c : Host.Cell} {m : Memory} (hm : Memory.wf m = true) (h : ∀ d ∈ m, c.1 < d.1) :
    Memory.wf (c :: m) = true := by
  cases m with
  | nil => rfl
  | cons d rest => simp [Memory.wf, hm, h d (List.mem_cons_self ..)]

theorem mem_memInsert {a : Nat} {b : Byte} {m : Memory} {c : Host.Cell} (h : c ∈ memInsert a b m) : c = (a, b) ∨ c ∈ m := by
  induction m with
  | nil => simpa [memInsert] using h
  | cons d rest ih =>
    simp only [memInsert] at h
    split at h
    · simpa using h
    · split at h
      · rcases List.mem_cons.mp h with h | h
        · exact .inl h
        · exact .inr (List.mem_cons_of_mem _ h)
      · rcases List.mem_cons.mp h with h | h
        · exact .inr (h ▸ List.mem_cons_self ..)
        · rcases ih h with h | h
          · exact .inl h
          · exact .inr (List.mem_cons_of_mem _ h)

theorem memInsert_wf (a : Nat) (b : Byte) (m : Memory) (h : Memory.wf m = true) : Memory.wf (memInsert a b m) = true := by
  induction m with
  | nil => rfl
  | cons c rest ih =>
    have ht := memory_wf_tail h
    have hh := memory_wf_head h
    simp only [memInsert]
    split
    · rename_i hlt
      refine memory_wf_cons h fun d hd => ?_
      rcases List.mem_cons.mp hd with rfl | hd
      · exact hlt
      · exact lt_trans hlt (hh d hd)
    · split
      · rename_i heq
        exact memory_wf_cons ht fun d hd => by simpa [heq] using hh d hd
      · refine memory_wf_cons (ih ht) fun d hd => ?_
        rcases mem_memInsert hd with rfl | hd
        · show c.1 < a
          omega
        · exact hh d hd

/-! ### The bytes of a trace word -/

theorem memWriteBytes_wf (a : Nat) (w : TraceWord) (j n : Nat) (m : Memory) (h : Memory.wf m = true) :
    Memory.wf (memWriteBytes a w j n m) = true := by
  induction n generalizing j m with
  | zero => exact h
  | succ k ih => exact ih _ _ (memInsert_wf _ _ _ h)

theorem memLookup_memWriteBytes (a : Nat) (w : TraceWord) (j n : Nat) (m : Memory) (x : Nat) :
    memLookup x (memWriteBytes a w j n m) =
      if a + j ≤ x ∧ x < a + j + n then some (wordByte w (x - a)) else memLookup x m := by
  induction n generalizing j m with
  | zero => simp only [memWriteBytes]; rw [if_neg (by omega)]
  | succ k ih =>
    simp only [memWriteBytes]
    rw [ih, memLookup_memInsert]
    by_cases hx : x = a + j
    · subst hx
      rw [if_neg (by omega), if_pos rfl, if_pos (by omega), Nat.add_sub_cancel_left]
    · by_cases h2 : a + (j + 1) ≤ x ∧ x < a + (j + 1) + k
      · rw [if_pos h2, if_pos (by omega)]
      · rw [if_neg h2, if_neg hx, if_neg (by omega)]

theorem mem_memWriteBytes {a : Nat} {w : TraceWord} {j n : Nat} {m : Memory} {c : Host.Cell}
    (h : c ∈ memWriteBytes a w j n m) : (a + j ≤ c.1 ∧ c.1 < a + j + n) ∨ c ∈ m := by
  induction n generalizing j m with
  | zero => exact .inr h
  | succ k ih =>
    rcases ih h with h | h
    · exact .inl (by omega)
    · rcases mem_memInsert h with rfl | h
      · exact .inl (by simp)
      · exact .inr h

/-- A trace-word write keeps the canonical form. -/
theorem memWriteWord_wf (a : Nat) (w : TraceWord) (m : Memory) (h : Memory.wf m = true) :
    Memory.wf (memWriteWord a w m) = true :=
  memWriteBytes_wf _ _ _ _ _ h

/-- A trace-word write changes its eight bytes and no other. -/
theorem memLookup_memWriteWord (a : Nat) (w : TraceWord) (m : Memory) (x : Nat) :
    memLookup x (memWriteWord a w m) =
      if a ≤ x ∧ x < a + 8 then some (wordByte w (x - a)) else memLookup x m := by
  simpa [memWriteWord] using memLookup_memWriteBytes a w 0 8 m x

theorem mem_memWriteWord {a : Nat} {w : TraceWord} {m : Memory} {c : Host.Cell} (h : c ∈ memWriteWord a w m) :
    (a ≤ c.1 ∧ c.1 < a + 8) ∨ c ∈ m := by
  simpa [memWriteWord] using mem_memWriteBytes h

/-- Reading the byte that a stored trace word put there, or one it left alone. -/
theorem readByte_storeWord (w : TraceWord) (s : State) (x : Nat) :
    readByte (storeWord w s) x =
      if s.wrpAddr.toNat ≤ x ∧ x < s.wrpAddr.toNat + 8 then wordByte w (x - s.wrpAddr.toNat) else readByte s x := by
  simp only [readByte, storeWord_tmem, storeWord_resetCount, memLookup_memWriteWord]
  by_cases hx : s.wrpAddr.toNat ≤ x ∧ x < s.wrpAddr.toNat + 8
  · rw [if_pos hx, if_pos hx]
  · rw [if_neg hx, if_neg hx]

end Sys2Proof.Machine
end

