-- ==== Sys2Proof/Laws/PerInstr.lean ====
section
/-! SUPPORT. Facts about every message, one lemma per constructor. -/

namespace Sys2Proof.Laws.EncodeLength

/-- Every message has 1 to 57 bits (R90). -/
def Statement (i : Instr) : Prop :=
  1 ≤ (encode i).length ∧ (encode i).length ≤ 57

theorem nSeq : Statement .nSeq := by simp [Statement, encode]
theorem nBt : Statement .nBt := by simp [Statement, encode]
theorem nJ8 (delta : BitVec 8) : Statement (.nJ8 delta) := by simp [Statement, encode]
theorem nJ16 (delta : BitVec 16) : Statement (.nJ16 delta) := by simp [Statement, encode]
theorem nFpc (pc : BitVec 31) (ncc : Bool) : Statement (.nFpc pc ncc) := by simp [Statement, encode]
theorem nRes : Statement .nRes := by simp [Statement, encode]
theorem sDcr : Statement .sDcr := by simp [Statement, encode]
theorem sUtm (data : BitVec 32) (utm2 : Bool) (dc : Option (BitVec 10)) : Statement (.sUtm data utm2 dc) := by
  have := length_deltaBits_le dc
  simp [Statement, encode]; omega
theorem sRsv : Statement .sRsv := by simp [Statement, encode]
theorem sBm (id : BitVec 4) (ib : Bool) (pc : BitVec 31) (ncc : Bool) (dc : Option (BitVec 10)) :
    Statement (.sBm id ib pc ncc dc) := by
  have := length_deltaBits_le dc
  simp [Statement, encode]; omega
theorem sFd (id : BitVec 4) (load full : Bool) (addr : BitVec 6) (field : BitVec 32) (dc : Option (BitVec 10)) :
    Statement (.sFd id load full addr field dc) := by
  have := length_deltaBits_le dc
  simp [Statement, encode]; omega
theorem sFce (fc ex r : Bool) (pc : BitVec 31) (ncc : Bool) (dc : Option (BitVec 10)) :
    Statement (.sFce fc ex r pc ncc dc) := by
  have := length_deltaBits_le dc
  simp [Statement, encode]; omega
theorem sRes : Statement .sRes := by simp [Statement, encode]

end Sys2Proof.Laws.EncodeLength
end

