-- ==== Sys2Proof/Laws/Ops.lean ====
section
/-! SUPPORT. One lemma per shared operation: what it can do when it answers a next state, for proofs to cite instead of unfolding it. -/

namespace Sys2Proof.Machine

/-! ### Outcomes -/

theorem andThen_next {o : Result State Fault Refusal} {k : State → Result State Fault Refusal} {t : State}
    (h : andThen o k = .next t) : ∃ s, o = .next s ∧ k s = .next t := by
  cases o with
  | next s => exact ⟨s, rfl, h⟩
  | fault r => simp [andThen] at h
  | refused r => simp [andThen] at h

theorem andThen_fault {o : Result State Fault Refusal} {k : State → Result State Fault Refusal} {r : Fault}
    (h : andThen o k = .fault r) : o = .fault r ∨ ∃ s, o = .next s ∧ k s = .fault r := by
  cases o with
  | next s => exact .inr ⟨s, rfl, h⟩
  | fault r' => exact .inl h
  | refused r' => simp [andThen] at h

/-! ### The queue and the trace memory -/

theorem dropWords_sublist (drop k : Nat) (q : List TraceWord) : (dropWords drop k q).Sublist q := by
  induction q generalizing k with
  | nil => exact List.Sublist.refl _
  | cons w rest ih =>
    simp only [dropWords]
    split
    · exact (ih _).cons w
    · exact (ih _).cons_cons w

theorem queueWord_cases (w : TraceWord) (s : State) :
    (fifoFull s = true ∧ queueWord w s = overflow s) ∨
      (fifoFull s = false ∧ queueWord w s = { s with fifo := s.fifo ++ [w] }) := by
  cases h : fifoFull s
  · exact .inr ⟨rfl, by simp [queueWord, h]⟩
  · exact .inl ⟨rfl, by simp [queueWord, h]⟩

/-- A trace word is queued off chip, or stored on chip at a pointer that is in trace memory. -/
theorem writeWord_next {w : TraceWord} {s t : State} (h : writeWord w s = .next t) :
    (s.ifctl.ofc = true ∧ t = queueWord w s) ∨
      (s.ifctl.ofc = false ∧ inTraceMemory s.params s.wrpAddr = true ∧ t = storeWord w s) := by
  unfold writeWord at h
  split at h
  · exact .inl ⟨‹_›, by simpa using h.symm⟩
  · split at h
    · exact .inr ⟨by simpa using ‹¬s.ifctl.ofc = true›, ‹_›, by simpa using h.symm⟩
    · cases h

theorem writeWord_fault {w : TraceWord} {s : State} {r : Fault} (h : writeWord w s = .fault r) :
    s.ifctl.ofc = false ∧ inTraceMemory s.params s.wrpAddr = false ∧ r = .noSuchTraceWord := by
  unfold writeWord at h
  split at h
  · cases h
  · split at h
    · cases h
    · exact ⟨by simpa using ‹¬s.ifctl.ofc = true›, by simpa using ‹¬inTraceMemory _ _ = true›, by cases h; rfl⟩

/-! ### Emission and flush -/

/-- A message is accumulated, or it completes a word, which is written. -/
theorem emit_next {m : List Bool} {s t : State} (h : emit m s = .next t) :
    (s.acc.length + m.length < 58 ∧ t = accumulate m s) ∨
      (58 ≤ s.acc.length + m.length ∧
        writeWord (takeWord (accumulate m s)).1 (takeWord (accumulate m s)).2 = .next t) := by
  unfold emit at h
  split at h
  · exact .inl ⟨‹_›, by simpa using h.symm⟩
  · exact .inr ⟨by omega, h⟩

/-- A flush finds nothing, or writes one word, the accumulator empty before it is written. -/
theorem flush_next {s t : State} (h : flush s = .next t) :
    (s.acc = [] ∧ t = clearAcc s) ∨ (s.acc ≠ [] ∧ writeWord (flushWord s) (clearAcc s) = .next t) := by
  unfold flush at h
  split at h
  · exact .inl ⟨by simpa using ‹s.acc.isEmpty = true›, by simpa using h.symm⟩
  · exact .inr ⟨by simpa using ‹¬s.acc.isEmpty = true›, h⟩

theorem sendBits_next {m : List Bool} {s t : State} (h : sendBits m s = .next t) :
    (inTraceOn s = false ∧ t = s) ∨ (inTraceOn s = true ∧ emit m s = .next t) := by
  unfold sendBits at h
  split at h
  · exact .inr ⟨‹_›, h⟩
  · exact .inl ⟨by simpa using ‹¬inTraceOn s = true›, by simpa using h.symm⟩

theorem sendTraced_next {m : List Bool} {s t : State} (h : sendTraced m s = .next t) :
    (inTraceOn s = false ∧ t = s) ∨ (inTraceOn s = true ∧ emit m (noteTraced s) = .next t) := by
  unfold sendTraced at h
  split at h
  · exact .inr ⟨‹_›, h⟩
  · exact .inl ⟨by simpa using ‹¬inTraceOn s = true›, by simpa using h.symm⟩

/-! ### Trace-on and triggers -/

theorem reevaluate_cases (d : Config.Draws) (was : Bool) (s : State) :
    (was = false ∧ inTraceOn s = true ∧ reevaluate d was s = traceStart d s) ∨
      ((was = true ∨ inTraceOn s = false) ∧ reevaluate d was s = s) := by
  cases was <;> cases h : inTraceOn s <;> simp [reevaluate, h]

theorem applyTrigger_cases (d : Config.Draws) (b : Bool) (s : State) :
    (s.ifctl.en = b ∧ applyTrigger d b s = s) ∨
      (s.ifctl.en ≠ b ∧ applyTrigger d b s = reevaluate d (inTraceOn s) (setEn b { s with discont := true })) := by
  by_cases h : s.ifctl.en = b
  · exact .inl ⟨h, by simp [applyTrigger, h]⟩
  · exact .inr ⟨h, by simp [applyTrigger, h]⟩

/-! ### What a message on the unit's side can do -/

/-- On the unit's side every message but S.RSV is ignored while In_TraceOn is off, and emitted while it is on. -/
theorem exec_unit (i : Instr) (s : State) (hi : i ≠ .sRsv) (hr : s.reader.active = false) :
    exec i s = if inTraceOn s then emit (encode i) (beforeEmit i s) else .next s := by
  cases i <;> first
    | exact absurd rfl hi
    | simp [exec, execNSeq, execNBt, execNJ8, execNJ16, execNFpc, execNRes, execSDcr, execSUtm, execSBm, execSFd, execSFce,
        execSRes, beforeEmit, sendTraced, sendBits, hr]

theorem exec_unit_next {i : Instr} {s t : State} (hr : s.reader.active = false) (h : exec i s = .next t) :
    (inTraceOn s = false ∧ t = s) ∨ (inTraceOn s = true ∧ emit (encode i) (beforeEmit i s) = .next t) := by
  by_cases hi : i = .sRsv
  · subst hi
    simp [exec, execSRsv, hr] at h
  · rw [exec_unit i s hi hr] at h
    split at h
    · exact .inr ⟨‹_›, h⟩
    · exact .inl ⟨by simpa using ‹¬inTraceOn s = true›, by simpa using h.symm⟩

/-- On the reader's side a message changes the reader and nothing else. -/
theorem exec_reader (i : Instr) (s : State) (hr : s.reader.active = true) : ∃ r, exec i s = .next (setReader r s) := by
  cases i <;>
    simp only [exec, execNSeq, execNBt, execNJ8, execNJ16, execNFpc, execNRes, execSDcr, execSUtm, execSRsv, execSBm, execSFd,
      execSFce, execSRes, hr, if_true] <;>
    exact ⟨_, rfl⟩

/-! ### Special mode -/

/-- An instruction traced in special mode makes its records, where no breakpoint with BE set and no wide filtered access matches. -/
theorem traceSpecial_next {d : Config.Draws} {i : Retired} {s t : State} (h : traceSpecial d i s = .next t) :
    breakEnableMatch i s = false ∧ wideMatch i s = false ∧ t = generate (specialMessages d i s) s := by
  unfold traceSpecial at h
  split at h
  · cases h
  · split at h
    · cases h
    · exact ⟨by simpa using ‹¬breakEnableMatch i s = true›, by simpa using ‹¬wideMatch i s = true›, by simpa using h.symm⟩

/-! ### The unpredictable stream -/

/-- What every emission keeps, an unpredictable stream keeps. -/
theorem garbage_keeps (P : State → Prop)
    (step : ∀ m s t, P s → 1 ≤ m.length → m.length ≤ 57 → emit m s = .next t → P t) :
    ∀ ms s t, P s → garbage ms s = .next t → P t := by
  intro ms
  induction ms with
  | nil => intro s t hs h; simp [garbage] at h; exact h ▸ hs
  | cons m rest ih =>
    intro s t hs h
    simp only [garbage] at h
    obtain ⟨s', h', h⟩ := andThen_next h
    refine ih s' t ?_ h
    unfold emitGarbage at h'
    split at h'
    · simp at h'; exact h' ▸ hs
    · split at h'
      · simp at h'; exact h' ▸ hs
      · rename_i hm _
        have : m.length ≠ 0 := by simpa [List.length_eq_zero_iff] using hm
        exact step (m.take 57) s s' hs (by simp; omega) (by simp) h'

/-! ### The port -/

theorem idleSlot_cases (s : State) :
    (s.params.hasPib = true ∧ s.tx = none ∧ idleSlot s = drive none (slot 0#4 s)) ∨
      ((s.params.hasPib = false ∨ s.tx ≠ none) ∧ idleSlot s = s) := by
  cases hp : s.params.hasPib <;> cases ht : s.tx <;> simp [idleSlot, hp, ht]

/-- A PibTake takes the oldest queued word, or the slot is idle. -/
theorem pibTake_cases (s : State) :
    (∃ w rest, s.fifo = w :: rest ∧ s.ifctl.ofc = true ∧ s.tx = none ∧ portEnabled s = true ∧
      pibTake s = drive (some { word := w, nibble := 0 }) { s with fifo := rest }) ∨
    (pibReady s = false ∧ pibTake s = idleSlot s) := by
  cases h : pibReady s
  · exact .inr ⟨rfl, by simp [pibTake, h]⟩
  · have hr := h
    simp only [pibReady, Bool.and_eq_true, Option.isNone_iff_eq_none] at hr
    cases hf : s.fifo with
    | nil => simp [hf] at hr
    | cons w rest => exact .inl ⟨w, rest, rfl, hr.1.1.1, hr.1.2, hr.2, by simp [pibTake, h, loadTx, hf]⟩

/-! ### Registers -/

/-- A CP0 access that is answered is one of a user register. -/
theorem cp0Access_next {register select : Nat} {k : Bool → Result State Fault Refusal} {t : State}
    (h : cp0Access register select k = .next t) : ∃ second, cp0Register register select = some second ∧ k second = .next t := by
  unfold cp0Access at h
  split at h
  · cases h
  · exact ⟨_, ‹_›, h⟩

/-- A read of ITCBTW that is answered is one of a word of trace memory, on chip. -/
theorem readTraceWord_next {v : TraceWord → BitVec 64} {k : State → State} {s t : State} (h : readTraceWord v k s = .next t) :
    s.ifctl.ofc = false ∧ inTraceMemory s.params s.rdpAddr = true ∧
      t = { k s with readData := v (readWord s s.rdpAddr.toNat) } := by
  unfold readTraceWord at h
  split at h
  · cases h
  · split at h
    · exact ⟨by simpa using ‹¬s.ifctl.ofc = true›, ‹_›, by simpa [returns] using h.symm⟩
    · cases h

/-- One pair of reads gives the trace word at ITCBRDP and moves ITCBRDP on. -/
theorem readPair_eq (s : State) (hm : s.params.hasOnchip = true) (ho : s.ifctl.ofc = false)
    (hr : inTraceMemory s.params s.rdpAddr = true) :
    readPair s = some (readWord s s.rdpAddr.toNat,
      { advanceRead s with readData := ((readWord s s.rdpAddr.toNat).extractLsb' 0 32).setWidth 64 }) := by
  have join : ∀ w : TraceWord,
      joinHalves ((w.extractLsb' 32 32).setWidth 64) ((w.extractLsb' 0 32).setWidth 64) = w := by
    intro w
    apply BitVec.eq_of_getLsbD_eq
    intro i hi
    by_cases h : i < 32
    · simp only [joinHalves, BitVec.getLsbD_append, h, if_true, BitVec.getLsbD_setWidth, BitVec.getLsbD_extractLsb']
      simp [show i < 64 by omega]
    · simp only [joinHalves, BitVec.getLsbD_append, h, if_false, BitVec.getLsbD_setWidth, BitVec.getLsbD_extractLsb']
      rw [show 32 + (i - 32) = i by omega]
      simp [show i - 32 < 32 by omega, show i - 32 < 64 by omega]
  have same : ∀ (v : BitVec 64) (a : Nat), readWord { s with readData := v } a = readWord s a := fun _ _ => rfl
  simp [readPair, regRead, drsegReg, needsTraceMemory, readRegister, readWord32, readTraceWord, returns, nextState, hm, ho, hr,
    advanceRead, join, same]

/-! ### The queue of events -/

/-- The event taken is one of the list, and not one that is held. -/
theorem takeEvent_enabled {s : State} {held : Bool} {es rest : List Event} {e : Event}
    (h : takeEvent s held es = some (e, rest)) :
    e ∈ es ∧ (freeRunning e = true ∨ (held = false ∧ eventHeld s e = false)) := by
  induction es generalizing held rest with
  | nil => simp [takeEvent] at h
  | cons x xs ih =>
    simp only [takeEvent] at h
    split at h
    · rename_i hx
      simp only [Option.some.injEq, Prod.mk.injEq] at h
      obtain ⟨rfl, -⟩ := h
      refine ⟨List.mem_cons_self .., ?_⟩
      simpa using hx
    · split at h
      · cases h
      · rename_i e' rest' hrec
        simp only [Option.some.injEq, Prod.mk.injEq] at h
        obtain ⟨rfl, -⟩ := h
        obtain ⟨hm, hk⟩ := ih hrec
        refine ⟨List.mem_cons_of_mem _ hm, .inl ?_⟩
        rcases hk with hk | hk
        · exact hk
        · exact absurd hk.1 (by simp)

end Sys2Proof.Machine
end

