-- ==== Sys2Proof/Machine/Text.lean ====
section
/-! DEFINITION. The text form of messages and trace words (spec/30_encoding.md R117). -/

namespace Sys2Proof.Machine

/-- A hexadecimal digit. -/
def hexDigit (n : Nat) : Char :=
  if n < 10 then Char.ofNat (48 + n) else Char.ofNat (55 + n)

/-- `n` hexadecimal digits of `v`, most significant first. -/
def hexDigits (n v : Nat) : List Char :=
  match n with
  | 0 => []
  | k + 1 => hexDigits k (v / 16) ++ [hexDigit (v % 16)]

/-- A value with `n` hexadecimal digits. -/
def hex (n v : Nat) : String :=
  "0x" ++ String.ofList (hexDigits n v)

/-- A value below 2^32 without leading zeros. -/
def hexShort (v : Nat) : String :=
  if v = 0 then "0x0" else "0x" ++ String.ofList ((hexDigits 8 v).dropWhile (· == '0'))

/-- A bit as a decimal digit. -/
def bitText (b : Bool) : String :=
  if b then "1" else "0"

/-- A signed byte difference. -/
def deltaText (d : Word) : String :=
  if d.msb then "-" ++ hexShort (0#32 - d).toNat else hexShort d.toNat

/-- The `dc=` pair of a message that carries a DeltaCycle. -/
def dcText (dc : Option (BitVec 10)) : String :=
  match dc with
  | none => ""
  | some d => " dc=" ++ toString d.toNat

/-- The text form of a message: mnemonic and field pairs in the order of its format table (R117). R117 shows four messages; the pair names of S.BM and
S.FCE, and leaving `be=` out where `full=1`, are the model's (DESIGN CHOICE, log 52). -/
def messageText (i : Instr) : String :=
  i.mnemonic ++
  (match i with
  | .nSeq | .nBt | .nRes | .sDcr | .sRsv | .sRes => ""
  | .nJ8 d => " delta=" ++ deltaText (offset8 d)
  | .nJ16 d => " delta=" ++ deltaText (offset16 d)
  | .nFpc pc ncc => " pc=" ++ hex 8 (fieldPc pc).toNat ++ " ncc=" ++ bitText ncc
  | .sUtm data utm2 dc => " data=" ++ hex 8 data.toNat ++ " utm2=" ++ bitText utm2 ++ dcText dc
  | .sBm id ib pc ncc dc =>
      " id=" ++ toString id.toNat ++ " ib=" ++ bitText ib ++ " pc=" ++ hex 8 (fieldPc pc).toNat ++ " ncc=" ++ bitText ncc ++ dcText dc
  | .sFd id load full addr field dc =>
      " id=" ++ toString id.toNat ++ " load=" ++ bitText load ++ " full=" ++ bitText full ++ " addr72=" ++ hex 2 addr.toNat ++
        (if full then "" else " be=" ++ hex 1 (fieldEnables full field).toNat) ++
        " value=" ++ hexShort (fieldValue full field).toNat ++ dcText dc
  | .sFce fc ex r pc ncc dc =>
      " fc=" ++ bitText fc ++ " ex=" ++ bitText ex ++ " r=" ++ bitText r ++ " pc=" ++ hex 8 (fieldPc pc).toNat ++
        " ncc=" ++ bitText ncc ++ dcText dc)

/-- A trace word as 16 hexadecimal digits (R117). -/
def wordText (w : TraceWord) : String :=
  hex 16 w.toNat

end Sys2Proof.Machine
end

