-- ==== Sys2Proof/Tests/Slice0.lean ====
section
/-! SUPPORT. Tests. Expected values come from spec/95_test_vectors.md or from hand calculation with the cited rule. The theorems named
`test_meets_<Name>` show that the hypotheses of `Obligations.<Name>` can be met together, clause by clause. -/

namespace Sys2Proof.Tests

open Sys2Proof.Machine

/-! ### Helpers -/

/-- Tracing on chip in normal mode. -/
def on : State :=
  { State.reset with ifctl := { State.reset.ifctl with on := true, en := true }, needFullPc := false }

/-- Tracing off chip in normal mode. -/
def offChip : State :=
  { on with ifctl := { on.ifctl with ofc := true } }

/-- Tracing in special mode with the given mode bits. -/
def special (cyc fdt bm er fcr : Bool) : State :=
  { on with ifctl := { on.ifctl with est := true, cyc := cyc, fdt := fdt, bm := bm, er := er, fcr := fcr } }

/-- A reader at work. -/
def reading : State :=
  { State.reset with reader := { Reader.idle with active := true, aligned := true, synced := true, pc := 0x80001000#32, ncc := true } }

/-- A reader at work that is not synchronised. -/
def lost : State :=
  { reading with reader := { reading.reader with synced := false } }

/-- A sequential instruction without events. -/
def plain : Retired :=
  { pc := 0x80001234#32, ncc := true, flow := .seq, exc := false, call := false, ret := false, eret := false
    ibp := 0#15, ibpBe := 0#15, mem := none }

/-- A word load at a data breakpoint. -/
def load : MemAccess :=
  { load := true, be := 15#4, addr := 0x001000A8#32, data := 0xDEADBEEF#32, dbp := 8#15, dbpBe := 0#15, wide := false }

/-- The draws of a step that takes every first choice. -/
def draw : Config.Draws :=
  { resume := false, pick8 := true, pick16 := true, afterI := 0#15, afterD := 0#15, lastBefore := false, lastAfter := false
    ibBit := false, order := 0, drop := 0, syncPhase := 0, dcycPhase := 0, garbage := [] }

/-- A field of the next state, if there is one. -/
def after {α : Type} (o : Result State Fault Refusal) (f : State → α) : Option α :=
  (nextState o).map f

/-! ### Well-formedness: each check refuses an ill-formed message -/

theorem test_wf_refuses_other_mode : (Instr.sDcr).wellFormed false true = false ∧ (Instr.nSeq).wellFormed true true = false := by decide
theorem test_wf_refuses_missing_delta : (Instr.sUtm 1#32 false none).wellFormed true true = false := by decide
theorem test_wf_refuses_extra_delta : (Instr.sUtm 1#32 false (some 3#10)).wellFormed true false = false := by decide
theorem test_wf_refuses_delta_1023 : (Instr.sUtm 1#32 false (some 1023#10)).wellFormed true true = false := by decide
theorem test_wf_refuses_reserved : (Instr.sRsv).wellFormed true false = false := by decide
theorem test_wf_refuses_full_enables : (Instr.sFd 0#4 true false 0#6 0xF0000000#32 none).wellFormed true false = false := by decide
theorem test_wf_refuses_wide_value : (Instr.sFd 0#4 true false 0#6 0x10000100#32 none).wellFormed true false = false := by decide
theorem test_wf_refuses_no_event : (Instr.sFce false false false 0#31 true none).wellFormed true false = false := by decide
theorem test_wf_refuses_rollover_without_cyc : (Instr.sDcr).wellFormed true false = false := by decide
theorem test_wf_accepts : (Instr.sFd 0#4 true false 0x3F#6 0x100000AB#32 none).wellFormed true false = true ∧
    (Instr.sFce true false false 0#31 true (some 1022#10)).wellFormed true true = true ∧ (Instr.nBt).wellFormed false true = true := by decide

/-! ### Decoding: the words of spec/95_test_vectors.md 2.1 and 2.2, every constructor -/

theorem test_decode_nSeq : decode false false (toBits 1 0x0) = .message .nSeq [] := by decide
theorem test_decode_nBt : decode false false (toBits 2 0x1) = .message .nBt [] := by decide
theorem test_decode_nJ8 : decode false false (toBits 12 0xF03) = .message (.nJ8 0xF0#8) [] := by decide
theorem test_decode_nJ16 : decode false false (toBits 20 0x0812B) = .message (.nJ16 0x0812#16) [] := by decide
theorem test_decode_nFpc : decode false false (toBits 36 0xCFE002007) = .message (.nFpc (pcField 0x9FC00400#32) true) [] := by decide
theorem test_decode_nFpc_mips16e : decode false false (toBits 36 0x400010007) = .message (.nFpc (pcField 0x80002000#32) false) [] := by decide
theorem test_decode_nRes : decode false false (toBits 4 0xF) = .message .nRes [] := by decide
theorem test_decode_sDcr : decode true true (toBits 2 0x0) = .message .sDcr [] := by decide
theorem test_decode_sUtm : decode true false (toBits 36 0x657F7806A) = .message (.sUtm 0xCAFEF00D#32 false none) [] := by decide
theorem test_decode_sUtm_delta :
    decode true true (toBits 46 0xCE57F7806A) = .message (.sUtm 0xCAFEF00D#32 true (some 12#10)) [] := by decide
theorem test_decode_sRsv : decode true false (toBits 3 0x6) = .message .sRsv [] := by decide
theorem test_decode_sBm : decode true false (toBits 39 0x6000048D49) = .message (.sBm 2#4 true (pcField 0x80001234#32) true none) [] := by decide
theorem test_decode_sBm_delta :
    decode true true (toBits 49 0x2E000048D3D) = .message (.sBm 15#4 false (pcField 0x80001234#32) true (some 5#10)) [] := by decide
theorem test_decode_sFd : decode true false (toBits 47 0x6F56DF77D59B) = .message (.sFd 3#4 true true 0x2A#6 0xDEADBEEF#32 none) [] := by decide
theorem test_decode_sFd_delta :
    decode true true (toBits 57 0x1F46000091A541B) = .message (.sFd 3#4 false false 0x2A#6 0xC0001234#32 (some 1000#10)) [] := by decide
theorem test_decode_sFce : decode true false (toBits 39 0x6000010147) = .message (.sFce false false true (pcField 0x80000404#32) true none) [] := by decide
theorem test_decode_sFce_delta :
    decode true true (toBits 49 0x3E000006027) = .message (.sFce false true false (pcField 0x80000180#32) true (some 7#10)) [] := by decide
theorem test_decode_sRes : decode true false (toBits 4 0xF) = .message .sRes [] := by decide
theorem test_decode_truncated : decode false false (toBits 11 0xF03) = .truncated ∧ decode true true (toBits 56 0x1F46000091A541B) = .truncated := by decide

/-! ### Encoding, tags and words (spec/95_test_vectors.md 2.1 to 2.3) -/

theorem test_encode_smallest_j16 : messageNumber (.nJ16 (delta16 0xFFFF0000#32)) = 0x8000B := by decide
theorem test_encode_three_bytes :
    messageNumber (.sFd 14#4 false false 0#6 (dataField 7#4 0x00123456#32) (some 1022#10)) = 0x1FF38091A2B0073 := by decide
/-- No two rows of one mode match the same word (R109). -/
theorem test_rows_do_not_overlap :
    opcodeRows.Pairwise (fun a b => a.special = b.special → (a.mask &&& b.mask &&& (a.pattern ^^^ b.pattern)) ≠ 0) := by decide
/-- Every four type bits match a row of each mode (R109). -/
theorem test_rows_are_complete :
    ∀ v : Fin 16, ∀ mode : Bool, ∃ r ∈ opcodeRows, r.special = mode ∧ v.val &&& r.mask = r.pattern := by decide
theorem test_tags : encTag 0 = 58#6 ∧ encTag 16 = 59#6 ∧ encTag 32 = 60#6 ∧ encTag 48 = 61#6 ∧ encTag 15 = 15#6 ∧ encTag 56 = 56#6 := by decide
theorem test_corrupt_tags : [0#6, 16#6, 32#6, 48#6, 57#6, 62#6, 63#6].all (fun t => (decTag t).isNone) = true := by decide
theorem test_fits : fits8 254#32 = true ∧ fits8 256#32 = false ∧ fits8 0xFFFFFF00#32 = true ∧ fits8 0xFFFFFEFE#32 = false ∧
    fits16 65534#32 = true ∧ fits16 65536#32 = false ∧ fits16 0xFFFF0000#32 = true ∧ fits16 1#32 = false := by decide
theorem test_text : messageText (.nFpc (pcField 0x80001000#32) true) = "N.FPC pc=0x80001000 ncc=1" ∧
    wordText 0x58084300002001FA#64 = "0x58084300002001FA" := ⟨rfl, rfl⟩

/-! ### Single steps -/

/-- The reader's N.J8 with `pc = 0x80001000` and field 0xF0 goes to 0x80000FE0 (spec/95_test_vectors.md 2.1). -/
theorem test_read_nJ8 : after (exec (.nJ8 0xF0#8) reading) (·.reader.pc) = some 0x80000FE0#32 := by decide
/-- N.J16 with field 0x8000 wraps (spec/95_test_vectors.md 2.1). -/
theorem test_read_nJ16_wraps :
    after (exec (.nJ16 0x8000#16) { reading with reader := { reading.reader with pc := 0x00008000#32 } }) (·.reader.pc) =
      some 0xFFFF8000#32 := by decide
/-- The fifteen carried bits and three N.SEQ are flushed as the word of spec/95_test_vectors.md 2.3. -/
theorem test_flush_word :
    flushWord { on with acc := toBits 15 0x0409 ++ [false, false, false], firstStart := some 15 } = 0xFFFFFFFFFF01024F#64 := by decide
set_option maxRecDepth 4000 in
/-- A flush where no message begins in the word: tag 45, the first fill bit (spec/95_test_vectors.md 2.3, D15). -/
theorem test_flush_without_begin :
    flushWord { on with acc := toBits 45 0x1F46000091A5, firstStart := none } = 0xFFFFD1800024696D#64 := by decide
/-- An N.J16 at bit 53 completes the word of spec/95_test_vectors.md 2.3 (P1); fifteen bits are carried. -/
theorem test_word_completed :
    (takeWord (accumulate (encode (.nJ16 0x0812#16)) { on with acc := toBits 53 0x210C00008007, firstStart := some 0 })).1 =
      0x58084300002001FA#64 ∧
    (takeWord (accumulate (encode (.nJ16 0x0812#16)) { on with acc := toBits 53 0x210C00008007, firstStart := some 0 })).2.acc =
      toBits 15 0x0409 := by decide
/-- The word at the top of trace memory sets Wrap and sends the pointer to 0 (spec/95_test_vectors.md 2.4). -/
theorem test_wrap_at_top :
    (storeWord 1#64 { on with wrpAddr := 0x1FF8#32 }).wrpAddr = 0#32 ∧ (storeWord 1#64 { on with wrpAddr := 0x1FF8#32 }).wrpWrap = true ∧
      (storeWord 1#64 on).wrpAddr = 8#32 ∧ (storeWord 1#64 on).wrpWrap = false := by decide
/-- Low byte first (log 6). -/
theorem test_word_reads_back : readWord (storeWord 0x58084300002001FA#64 on) 0 = 0x58084300002001FA#64 ∧
    readByte (storeWord 0x58084300002001FA#64 on) 0 = 0xFA#8 := by decide
/-- Register vectors of spec/95_test_vectors.md 2.4 and 2.5. -/
theorem test_rdp_takes_writable_bits : after (regWrite draw 0x3F88 .word 0xFFFFFFFF#64 State.reset) (·.rdpAddr) = some 0x1FF8#32 := by decide
theorem test_trigger_register_mask :
    after (andThen (regWrite draw 0x3FD0 .word 0xFFFFFFFF#64 State.reset) (regRead 0x3FD0 .word)) (·.readData) = some 0x10007FFF#64 := by decide
theorem test_ifctl_starts_special :
    after (andThen (regWrite draw 0x3FC0 .word 0x4E03#64 State.reset) (regRead 0x3FC0 .word)) (fun s => (s.readData, inTraceOn s)) =
      some (0x4E03#64, true) := by decide
theorem test_ifctl_without_special_modes :
    after (andThen (regWrite draw 0x3FC0 .word 0xFFFFFFFE#64 (State.resetOf { Config.sample with
        implCyc := false, implFdt := false, implBm := false, implEr := false, implFcr := false, hasPib := false }))
      (regRead 0x3FC0 .word)) (·.readData) = some 0x1F6#64 := by decide
theorem test_wrong_offset : regRead 0x3F81 .word State.reset = .refused .unassignedOffset := rfl
theorem test_wrong_width : regWrite draw 0x3FC0 .byte 1#64 State.reset = .refused .widthNotAdmitted := rfl
/-- Choice of message (spec/95_test_vectors.md 2.1): sync counter 1 gives a full PC, 2 gives N.BT. -/
theorem test_sync_due :
    after (retire draw { plain with pc := 0x80002000#32, flow := .takenStatic } { on with syncCtr := 1, lastNcc := true })
      (fun s => (s.bus, s.syncCtr)) = some ([.nFpc (pcField 0x80002000#32) true], 256) := by decide
theorem test_sync_not_due :
    after (retire draw { plain with flow := .takenStatic } { on with syncCtr := 2, lastNcc := true }) (fun s => (s.bus, s.syncCtr)) =
      some ([.nBt], 1) := by decide
theorem test_ncc_change :
    after (retire draw { plain with pc := 0x80002000#32, ncc := false } { on with syncCtr := 9, lastNcc := true }) (·.bus) =
      some [.nFpc (pcField 0x80002000#32) false] := by decide
/-- Triggers (spec/95_test_vectors.md 2.6): ITrigiFlowTrcEn = 0x10000001. -/
theorem test_stop_trigger :
    after (retire draw { plain with ibp := 2#15 } { on with itrig := { gate := true, brk := 1#15 } })
      (fun s => (s.ifctl.en, s.discont, s.bus)) = some (false, true, []) := by decide
theorem test_start_trigger :
    after (retire draw { plain with ibp := 1#15 }
      { on with ifctl := { on.ifctl with en := false }, itrig := { gate := true, brk := 1#15 } })
      (fun s => (s.ifctl.en, s.discont, s.bus)) = some (true, true, [.nFpc (pcField 0x80001234#32) true]) := by decide
/-- The S.FD of spec/95_test_vectors.md 2.2, row 1. -/
theorem test_filtered_data :
    after (retire draw { plain with mem := some load }
      { special false true false false false with dtrig := { gate := true, brk := 0#15 } }) (fun s => s.bus.map messageNumber) =
      some [0x6F56DF77D59B] := by decide
/-- The S.FCE of a JAL at 0x80000400 (spec/95_test_vectors.md 2.2). -/
theorem test_call :
    after (retire draw { plain with pc := 0x80000400#32, call := true } (special false false false false true))
      (fun s => s.bus.map messageNumber) = some [0x6000010017] := by decide
theorem test_break_enable_refused :
    retire draw { plain with ibp := 1#15, ibpBe := 1#15 }
      { special false false true false false with itrig := { gate := true, brk := 0#15 } } = .refused .breakEnableSet := rfl
/-- In FDT mode too (R264, U6); with the gate closed the run goes on (log 31). -/
theorem test_break_enable_refused_with_fdt_alone :
    retire draw { plain with ibp := 1#15, ibpBe := 1#15 }
      { special false true false false false with itrig := { gate := true, brk := 0#15 } } = .refused .breakEnableSet ∧
    after (retire draw { plain with ibp := 1#15, ibpBe := 1#15 } (special false true false false false)) (·.bus) = some [] :=
  ⟨rfl, by decide⟩
/-- A nibble of zero does not wake the receiver; sixteen nibbles make the word (R213, R216). -/
theorem test_receiver : (Machine.sample 0#4 Receiver.idle) = Receiver.idle ∧
    (Machine.sample 5#4 { nibbles := List.replicate 15 10#4, words := [], gap := true }) =
      { nibbles := [], words := [{ word := 0x5AAAAAAAAAAAAAAA#64, afterGap := true }], gap := false } := by decide
/-- A slot while the probe is away is a gap in reception, and the word begun is lost (R216); TR_DATA is 0 in an idle slot, also where a word
is queued (R213). -/
theorem test_gap_and_idle_slot :
    (slot 3#4 { offChip with probeConnected := false, receiver := { Receiver.idle with nibbles := [5#4] } }).receiver =
      { nibbles := [], words := [], gap := true } ∧
    after (handleEvent draw .idleSlot { offChip with fifo := [0x3A#64] }) (fun s => (s.trData, s.fifo, s.portCycles)) =
      some (0#4, [0x3A#64], 2) := by decide
/-- OfClk is ignored with OfC = 0 (R32). -/
theorem test_slot_cycles :
    slotCycles { on.ifctl with ofClk := true } = 2 ∧ slotCycles { offChip.ifctl with ofClk := true } = 1 ∧ slotCycles offChip.ifctl = 2 := by
  decide
/-- Behind a gap the tag gives the boundary again (R216): bit 48 of the word with tag 61. -/
theorem test_gap_resynchronises :
    after (step { reading with reader := { reading.reader with
        bits := [false], words := [{ word := packWord (List.replicate 58 false) 61#6, afterGap := true }] } })
      (fun s => (s.reader.bits, s.reader.aligned)) = some ([], true) ∧
    (takeTraceWord { word := packWord (List.replicate 58 false) 61#6, afterGap := true } [] reading.reader).bits =
      List.replicate 10 false := by decide
/-- EST with CYC must be legal (R161 (e)), and with ER and FCR besides (R29): without bit 33, or bit 39, of the table they are not. -/
theorem test_combinations_always_legal : Config.sample.legalAlways = true ∧
    ({ Config.sample with legalCombo := 0xFFFFFFFDFFFFFFFF#64 }).legalAlways = false ∧
    ({ Config.sample with legalCombo := 0xFFFFFF7FFFFFFFFF#64 }).legalAlways = false := by decide
/-- UserTraceData1 is at (23, 3); its neighbour is not the unit's (R69). -/
theorem test_cp0_positions :
    after (handleEvent draw (.cp0Write 23 3 7#64) State.reset) (fun s => (s.utd1, s.utd2)) = some (7#64, 0#64) ∧
    handleEvent draw (.cp0Write 23 2 7#64) State.reset = .refused .notUnitRegister := ⟨by decide, rfl⟩
/-- The check of R247 step 6, and step 7: 0x4E00 read back with `Illegal` set starts nothing. -/
theorem test_start_check : startTrace 0x4E00#32 0x80004E00#32 true = [] ∧
    startTrace 0x4E00#32 0x4E00#32 true = [writeEvent 0x3FC0 0x4E03#32] ∧
    startTrace 0x4E00#32 0x4C00#32 true = [] := by decide
/-- The start clears the write pointer, off chip too, where the register exists (R247 step 3, R61); with triggers it writes both registers (R247 step 4). -/
theorem test_start_writes :
    setUpTrace Config.sample 0x100#32 0x8#32 none =
      [writeEvent 0x3FC0 0#32, writeEvent 0x3F90 0#32, .probeAttach true, writeEvent 0x3FC0 8#32, readEvent 0x3FC0] ∧
    setUpTrace { Config.sample with hasOnchip := false, ofcPreset := true } 0x100#32 0#32 none =
      [writeEvent 0x3FC0 0#32, .probeAttach true, writeEvent 0x3FC0 0#32, readEvent 0x3FC0] ∧
    setUpTrace Config.sample 0x100#32 0#32 (some (1#32, 2#32)) =
      [writeEvent 0x3FC0 0#32, writeEvent 0x3F90 0#32, writeEvent 0x3FD0 1#32, writeEvent 0x3FD8 2#32,
        writeEvent 0x3FC0 0#32, readEvent 0x3FC0] ∧
    setUpTrace Config.sample 0#32 0#32 none = [] := by decide
/-- The reader stops at the fill of the last word (R116). -/
theorem test_fill : atFill { Reader.idle with aligned := true, bits := List.replicate 40 true } = true := by decide
/-- withFetchWord: the placed word runs in the next step. -/
theorem test_placed_word_runs : after (step (State.reset.withFetchWord 40 0xCFE002007)) (fun s => (s.reader.pc, s.reader.ncc, s.reader.synced)) =
    some (0x9FC00400#32, true, true) := by decide
theorem test_table_modes : decodeTableWord 64 0x1F46000091A541B = some (.sFd 3#4 false false 0x2A#6 0xC0001234#32 (some 1000#10)) ∧
    decodeTableWord 8 0x6 = some .sRsv := by decide

/-! ### The hypotheses of the statements can be met -/

/-- A special-mode message with every field at an end of its range. -/
def longest : Instr := .sFd 15#4 false false 0x3F#6 0x70FFFFFF#32 (some 1022#10)

theorem test_meets_DecodeInvertsEncode :
    longest.fits true true = true ∧ (Instr.nFpc 0x7FFFFFFF#31 true).fits false false = true ∧ (Instr.sRsv).fits true false = true := by decide
theorem test_meets_EncodeInvertsDecode :
    (∃ i rest, decode true true (toBits 58 0x1F46000091A541B) = .message i rest) ∧ 57 ≤ (toBits 57 0x1F46000091A541B).length :=
  ⟨⟨_, _, rfl⟩, by decide⟩
theorem test_meets_StreamDecodesToMessages : ∀ i ∈ [Instr.sRes, .sDcr, longest], i ≠ .sRsv ∧ i.fits true true = true := by decide
theorem test_meets_TraceWordHoldsDataAndTag : (toBits 58 5).length = 58 ∧ 0 ≤ 56 ∧ 56 ≤ 56 := by decide
theorem test_meets_StepRunsDecodedMessage :
    ∃ (s : State) (i : Instr) (rest : List Bool), s.reader.active = true ∧ s.reader.aligned = true ∧ atFill s.reader = false ∧
      decode s.reader.est s.reader.cyc s.reader.bits = .message i rest :=
  ⟨{ reading with reader := { reading.reader with bits := toBits 13 0xF03 } }, .nJ8 0xF0#8, [false], by decide⟩
theorem test_meets_StepRunsPlacedInstruction : decodeTableWord 40 0xCFE002007 = some (.nFpc 0x4FE00200#31 true) := by decide
theorem test_meets_StepRunsBusMessageOrEvent :
    (∃ s : State, s.reader.active = false ∧ s.tx = none ∧ s.bus = [.nBt] ∧ s.discont = false ∧ sendHeld .nBt s = false) ∧
    (∃ s : State, s.reader.active = false ∧ s.tx = none ∧ s.bus = [.nBt] ∧ s.discont = true ∧ inTraceOn s = true ∧
      isResume .nBt = false ∧ sendHeld (resumeMessage s.ifctl) s = false) ∧
    (∃ s : State, s.reader.active = false ∧ s.tx = none ∧ s.bus = [.nRes] ∧ s.discont = true ∧ isResume .nRes = true ∧
      sendHeld .nRes s = false) ∧
    (∃ s : State, s.reader.active = false ∧ s.tx = none ∧ s.bus = [] ∧ s.latchedEn = some false) ∧
    (∃ s : State, s.reader.active = false ∧ s.tx = none ∧ s.bus = [] ∧ s.latchedEn = none ∧
      takeEvent s false s.events = some (.retire plain, [.pibTake])) ∧
    (∃ s : State, s.reader.active = false ∧ s.tx = none ∧ s.bus = [.nRes] ∧ sendHeld (busHead .nRes [] s).1 s = true ∧
      takeEvent s false s.events = some (.pibTake, [.retire plain])) :=
  ⟨⟨{ on with bus := [.nBt] }, by decide⟩, ⟨{ on with bus := [.nBt], discont := true }, by decide⟩,
   ⟨{ on with bus := [.nRes], discont := true }, by decide⟩, ⟨{ on with latchedEn := some false }, by decide⟩,
   ⟨{ on with events := [.retire plain, .pibTake] }, by decide⟩,
   ⟨{ offChip with ifctl := { offChip.ifctl with io := true }, fifo := [1#64, 2#64, 3#64, 4#64], acc := List.replicate 54 false
                   firstStart := some 0, bus := [.nRes], events := [.retire plain, .pibTake] }, by decide⟩⟩
theorem test_meets_ReaderReplaysFlow :
    reading.reader.active = true ∧ reading.reader.synced = true ∧ lost.reader.active = true ∧ lost.reader.synced = false := by decide
theorem test_meets_ReaderReportsEvents : reading.reader.active = true ∧
    ((none : Option (BitVec 10)) = none ∧ (none : Option Nat) = none ∨ ∃ d : BitVec 10, (none : Option (BitVec 10)) = some d ∧ none = some d.toNat) ∧
    ∃ d : BitVec 10, some 1022#10 = some d ∧ some 1022 = some (reading.reader.elapsed + d.toNat) :=
  ⟨rfl, .inl ⟨rfl, rfl⟩, 1022#10, rfl, rfl⟩
theorem test_meets_ReaderCountsAndAbandons : reading.reader.active = true := by decide
theorem test_meets_ReaderMessageFrame : reading.reader.active = true ∧ ∃ t, exec .sDcr reading = .next t := ⟨rfl, _, rfl⟩
/-- A reader without a boundary, or with the given bits behind one, before one word. -/
def before (aligned : Bool) (bits : List Bool) (w : TraceWord) (gap : Bool) : State :=
  { reading with reader := { reading.reader with aligned := aligned, bits := bits, words := [{ word := w, afterGap := gap }] } }

theorem test_meets_ReaderTakesWords :
    atFill reading.reader = true ∧ reading.reader.active = true ∧
    atFill lost.reader = true ∧ atFill { lost.reader with aligned := false } = false ∧ lost.reader.words = [] ∧
    decTag (wordTag 0x38#64) = some 56 ∧ decTag (wordTag 0x3A#64) = some 0 ∧ decTag (wordTag 0x3F#64) = none ∧
    atFill (before false [] 0x38#64 false).reader = false ∧ atFill (before true [] 0x3A#64 false).reader = false ∧
    decode false false [] = .truncated ∧ atFill (before true [true] 0x3A#64 false).reader = false ∧
    decode false false [true] = .truncated ∧ atFill (before true [true] 0x38#64 true).reader = false ∧
    atFill (before true [true] 0x3F#64 false).reader = false := by decide
theorem test_meets_TracedMessageAccumulates :
    isTraced (.nJ8 1#8) = true ∧ on.reader.active = false ∧ inTraceOn on = true ∧ on.acc.length + (encode (.nJ8 1#8)).length < 58 := by decide
theorem test_meets_TracedMessageStoresWord :
    ∃ s : State, isTraced .nSeq = true ∧ s.reader.active = false ∧ inTraceOn s = true ∧ 58 ≤ s.acc.length + (encode .nSeq).length ∧
      s.ifctl.ofc = false ∧ s.wrpAddr.toNat = 8 * (s.params.tmemWords - 1) ∧ s.wrpAddr.toNat < 8 * s.params.tmemWords :=
  ⟨{ on with acc := List.replicate 57 false, firstStart := some 0, wrpAddr := 0x1FF8#32 }, by decide⟩
theorem test_meets_EventMessageAccumulates :
    ∃ s : State, isEvent longest = true ∧ s.reader.active = false ∧ inTraceOn s = true ∧ s.acc.length + (encode longest).length < 58 :=
  ⟨special true true false false false, by decide⟩
theorem test_meets_EventMessageStoresWord :
    ∃ s : State, isEvent longest = true ∧ s.reader.active = false ∧ inTraceOn s = true ∧ 58 ≤ s.acc.length + (encode longest).length ∧
      s.ifctl.ofc = false ∧ s.wrpAddr.toNat < 8 * s.params.tmemWords :=
  ⟨{ special true true false false false with acc := [false], firstStart := some 0 }, by decide⟩
theorem test_meets_ResumptionMessagesAccumulate :
    (∃ s : State, s.reader.active = false ∧ inTraceOn s = true ∧ s.acc.length = 53 ∧ s.acc.length < 54) ∧
    (∃ s : State, s.reader.active = false ∧ inTraceOn s = true ∧ 54 = s.acc.length ∧ s.ifctl.ofc = false ∧
      s.wrpAddr.toNat < 8 * s.params.tmemWords) :=
  ⟨⟨{ on with acc := List.replicate 53 false, firstStart := some 0, discont := true }, by decide⟩,
   ⟨{ on with acc := List.replicate 54 false, firstStart := some 0, discont := true, wrpAddr := 0x1FF8#32 }, by decide⟩⟩
theorem test_meets_FullWordIsQueued :
    ∃ s : State, Instr.nRes ≠ .sRsv ∧ s.reader.active = false ∧ inTraceOn s = true ∧ 58 ≤ s.acc.length + (encode .nRes).length ∧
      s.ifctl.ofc = true ∧ s.fifo.length < s.params.fifoWords :=
  ⟨{ offChip with acc := List.replicate 54 false, firstStart := some 0, fifo := [1#64, 2#64, 3#64] }, by decide⟩
theorem test_meets_OverflowThrowsTraceAway :
    ∃ s : State, Instr.nRes ≠ .sRsv ∧ s.reader.active = false ∧ inTraceOn s = true ∧ 58 ≤ s.acc.length + (encode .nRes).length ∧
      s.ifctl.ofc = true ∧ s.params.fifoWords ≤ s.fifo.length :=
  ⟨{ offChip with acc := List.replicate 54 false, firstStart := some 0, fifo := [1#64, 2#64, 3#64, 4#64] }, by decide⟩
theorem test_meets_ReservedRefusedOthersIgnored :
    State.reset.reader.active = false ∧ inTraceOn State.reset = false ∧ Instr.nSeq ≠ .sRsv := by decide
theorem test_meets_UnitMessageFrame : on.reader.active = false ∧ (∃ t, exec .nSeq on = .next t) ∧ Instr.nSeq ≠ .sRes ∧
    isTraced .sDcr = false ∧ isResume .sDcr = false ∧ on.ifctl.ofc = false ∧ storesAt .nSeq on = none ∧
    storesAt .nSeq { on with acc := List.replicate 57 true, wrpAddr := 16#32 } = some 16 :=
  ⟨rfl, ⟨_, rfl⟩, by decide⟩
theorem test_meets_IfctlWriteSetsFields : State.reset.ifctl.on = false := by decide
theorem test_meets_StopFlushesPartialWord :
    (on.ifctl.on = true ∧ (0x2#64).getLsbD 0 = false ∧ on.acc = []) ∧
    (∃ s : State, s.ifctl.on = true ∧ (0x2#64).getLsbD 0 = false ∧ s.acc ≠ [] ∧
      (ifctlWritten s.params ((0x2#64).setWidth 32) s.ifctl).ofc = false ∧ s.wrpAddr.toNat = 8 * (s.params.tmemWords - 1) ∧
      s.wrpAddr.toNat < 8 * s.params.tmemWords) ∧
    (∃ s : State, s.ifctl.on = true ∧ (0xA#64).getLsbD 0 = false ∧ s.acc ≠ [] ∧
      (ifctlWritten s.params ((0xA#64).setWidth 32) s.ifctl).ofc = true ∧ s.fifo.length < s.params.fifoWords) :=
  ⟨by decide, ⟨{ on with acc := [false], firstStart := some 0, wrpAddr := 0x1FF8#32 }, by decide⟩,
   ⟨{ offChip with acc := [false], firstStart := some 0, fifo := [1#64, 2#64, 3#64] }, by decide⟩⟩
theorem test_meets_EnableDoesNotFlush :
    on.ifctl.on = true ∧ (0x1#64).getLsbD 0 = true ∧
      modeChangeWhileOn on.ifctl (ifctlWritten on.params ((0x1#64).setWidth 32) on.ifctl) = false ∧
      inTraceOn on = true ∧ inTraceOn { on with ifctl := { on.ifctl with en := false } } = false := by decide
theorem test_meets_ModeChangeWhileOnIsRefused :
    on.ifctl.on = true ∧ (0x7E0B#64).getLsbD 0 = true ∧ on.params.implEst = true ∧ (0x7E0B#64).getLsbD 9 ≠ on.ifctl.est ∧
      on.params.implCyc = true ∧ (0x7E0B#64).getLsbD 14 ≠ on.ifctl.cyc ∧ on.params.hasOnchip = true ∧ on.params.hasPib = true ∧
      (0x7E0B#64).getLsbD 3 ≠ on.ifctl.ofc := by decide
theorem test_meets_TraceWordReads :
    ∃ s : State, s.params.hasOnchip = true ∧ s.ifctl.ofc = false ∧ s.rdpAddr.toNat = 8 * (s.params.tmemWords - 1) ∧
      s.rdpAddr.toNat < 8 * s.params.tmemWords :=
  ⟨{ on with rdpAddr := 0x1FF8#32 }, by decide⟩
/-- A stopped 64-bit unit that has stored two words. -/
def stopped : State :=
  storeWord 2#64 (storeWord 1#64 (State.resetOf { Config.sample with regWidth64 := true }))

/-- The read-out gathers the two words, oldest first, and leaves the read pointer behind them (R248). -/
theorem test_read_out : (readOutTrace draw stopped).map (fun p => (p.1, p.2.rdpAddr)) = some ([1#64, 2#64], 16#32) := by decide
theorem test_meets_ReadOutReturnsTraceMemory :
    stopped.ifctl.on = false ∧ (stopped.params.hasOnchip = true ∧ stopped.params.regWidth64 = true ∧ stopped.ifctl.ofc = false ∧
      { stopped with rdpAddr := 0x1FF8#32 }.rdpAddr.toNat = 8 * (stopped.params.tmemWords - 1)) ∧ stopped.wrpWrap = false ∧
    { stopped with wrpWrap := true }.wrpWrap = true := by decide
theorem test_meets_TraceWordWriteIsIgnored : State.reset.params.hasOnchip = true := by decide

/-- The writable bits of a pointer write, bit by bit. -/
theorem pointer_bits (p : Config.Params) (v : BitVec 64) (a : Word)
    (h : ∀ k, k < 32 → a.getLsbD k = (decide (3 ≤ k ∧ k ≤ p.topBit ∧ k < 32) && v.getLsbD k)) :
    ∀ k, a.getLsbD k = (decide (3 ≤ k ∧ k ≤ p.topBit ∧ k < 32) && v.getLsbD k) := by
  intro k
  by_cases hk : k < 32
  · exact h k hk
  · simp [hk, BitVec.getLsbD_of_ge a k (by omega)]

theorem test_meets_PointerWrites :
    (∃ (s : State) (v : BitVec 64) (a : Word), s.params.hasOnchip = true ∧
      (∀ k, a.getLsbD k = (decide (3 ≤ k ∧ k ≤ s.params.topBit ∧ k < 32) && v.getLsbD k)) ∧ 2 ≤ s.params.topBit ∧
      s.params.topBit ≤ 30 ∧ a.toNat < 8 * s.params.tmemWords) ∧
    (∃ (s : State) (v : BitVec 64) (a : Word), s.params.hasOnchip = true ∧
      (∀ k, a.getLsbD k = (decide (3 ≤ k ∧ k ≤ s.params.topBit ∧ k < 32) && v.getLsbD k)) ∧ 2 ≤ s.params.topBit ∧
      s.params.topBit ≤ 30 ∧ 8 * s.params.tmemWords ≤ a.toNat) :=
  ⟨⟨State.reset, 0xFFFFFFFF#64, 0x1FF8#32, rfl, pointer_bits _ _ _ (by decide), by decide, by decide, by decide⟩,
   ⟨State.resetOf { Config.sample with tmemWords := 1000 }, 8000#64, 8000#32, rfl, pointer_bits _ _ _ (by decide), by decide, by decide,
    by decide⟩⟩
theorem test_meets_UserRegistersHoldWrites : (unpredictable State.reset.ifctl = false ∧ State.reset.ifctl.est = false) ∧
    ∃ s : State, inTraceOn s = false ∧ s.ifctl.on = true ∧ s.ifctl.est = true :=
  ⟨by decide, { on with ifctl := { on.ifctl with est := true, en := false } }, by decide⟩
theorem test_meets_ResetRegisterValues : Config.sample.wf = true ∧ Config.sample.hasOnchip = true ∧
    ∃ r, regRead 0x3FC0 .word (State.resetOf Config.sample) = .next r := ⟨by decide, rfl, _, rfl⟩
theorem test_meets_NormalModeMessageChoice :
    inTraceOn on = true ∧ on.ifctl.est = false ∧ unpredictable on.ifctl = false ∧ instrTriggers on plain = 0#15 ∧
      dataTriggers on plain = 0#15 ∧ on.needFullPc = false ∧ { on with needFullPc := true }.discont = false := by decide
theorem test_meets_OperandFieldsGiveValuesBack :
    fits8 (0x80000FE0#32 - 0x80001000#32) = true ∧ fits16 (0xFFFF8000#32 - 0x00008000#32) = true ∧
      (0x80001000#32).getLsbD 0 = false ∧ 7#4 ≠ 15#4 := by decide
theorem test_meets_SyncComesAfterCount : ∃ s : State, s.syncCtr = 255 + 1 := ⟨{ on with syncCtr := 256 }, rfl⟩
theorem test_meets_TraceOnAsksForFullPc :
    (∃ s : State, s.debugMode = true ∧ s.ifctl.on = true ∧ s.ifctl.en = true) ∧
    (State.reset.debugMode = false ∧ inTraceOn State.reset = false ∧ (0x4E03#64).getLsbD 0 = true ∧ (0x4E03#64).getLsbD 1 = true ∧
      modeChangeWhileOn State.reset.ifctl (ifctlWritten State.reset.params ((0x4E03#64).setWidth 32) State.reset.ifctl) = false) ∧
    (∃ s : State, s.debugMode = false ∧ s.ifctl.on = true ∧ s.ifctl.en = false) ∧
    (∃ (d : Config.Draws) (i : Retired) (s : State), 14 < s.params.nIbrk ∧ s.params.nIbrk ≤ 15 ∧ s.debugMode = false ∧ s.ifctl.on = true ∧
      s.ifctl.en = false ∧ s.ifctl.est = false ∧ unpredictable s.ifctl = false ∧ s.itrig.gate = true ∧
      s.itrig.brk.getLsbD 14 = true ∧ i.ibp = BitVec.ofNat 15 (2 ^ 14) ∧ i.mem = none ∧ d.afterI = 0#15) :=
  ⟨⟨{ on with debugMode := true }, by decide⟩, by decide, ⟨{ on with ifctl := { on.ifctl with en := false } }, by decide⟩,
   ⟨draw, { plain with ibp := 0x4000#15 },
    { on with ifctl := { on.ifctl with en := false }, itrig := { gate := true, brk := 0x4000#15 } }, by decide⟩⟩
theorem test_meets_BreakpointMatchMessage :
    ∃ (i : Retired) (s : State), 14 < s.params.nIbrk ∧ s.params.nIbrk ≤ 15 ∧ inTraceOn s = true ∧ s.ifctl.est = true ∧
      s.ifctl.illegal = false ∧ s.ifctl.bm = true ∧ s.ifctl.fcr = false ∧ s.ifctl.er = false ∧ s.itrig.gate = true ∧
      i.ibp = BitVec.ofNat 15 (2 ^ 14) ∧ i.ibpBe = 0#15 ∧ i.mem = none :=
  ⟨{ plain with ibp := 0x4000#15 }, { special true false true false false with itrig := { gate := true, brk := 0#15 } }, by decide⟩
theorem test_meets_FilteredDataMessage :
    ∃ (i : Retired) (m : MemAccess) (s : State), 3 < s.params.nDbrk ∧ s.params.nDbrk ≤ 15 ∧ inTraceOn s = true ∧ s.ifctl.est = true ∧
      s.ifctl.illegal = false ∧ s.ifctl.fdt = true ∧ s.ifctl.bm = false ∧ s.ifctl.fcr = false ∧ s.ifctl.er = false ∧
      s.dtrig.gate = true ∧ i.mem = some m ∧ m.dbp = BitVec.ofNat 15 (2 ^ 3) ∧ m.dbpBe = 0#15 ∧ m.wide = false ∧
      instrTriggers s i &&& i.ibpBe = 0#15 ∧
      instrTriggers { s with itrig := { gate := true, brk := 0#15 } } { i with ibp := 1#15, ibpBe := 1#15 } &&& 1#15 ≠ 0#15 :=
  ⟨{ plain with mem := some load }, load, { special true true false false false with dtrig := { gate := true, brk := 0#15 } }, by decide⟩
theorem test_meets_FlowEventMessage :
    ∃ s : State, inTraceOn s = true ∧ s.ifctl.est = true ∧ s.ifctl.illegal = false ∧ s.ifctl.bm = false ∧ s.ifctl.fdt = false :=
  ⟨special true false false true true, by decide⟩
theorem test_meets_UserMessage : ∃ s : State, inTraceOn s = true ∧ s.ifctl.est = true ∧ s.ifctl.illegal = false :=
  ⟨special true false false false false, by decide⟩
theorem test_meets_RolloverAfter1023Cycles :
    ∃ s : State, inTraceOn s = true ∧ s.ifctl.est = true ∧ s.ifctl.cyc = true ∧ s.ifctl.illegal = false ∧ s.dcyc = 0#10 :=
  ⟨special true false false false false, by decide⟩
theorem test_meets_TriggerSwitchesEnable :
    ∃ (d : Config.Draws) (i : Retired) (s : State), 14 < s.params.nIbrk ∧ s.params.nIbrk ≤ 15 ∧ s.ifctl.on = true ∧ s.debugMode = false ∧
      s.ifctl.est = false ∧ unpredictable s.ifctl = false ∧ s.itrig.gate = true ∧ i.ibp = BitVec.ofNat 15 (2 ^ 14) ∧ i.mem = none ∧
      d.afterI = 0#15 :=
  ⟨draw, { plain with ibp := 0x4000#15 }, { on with itrig := { gate := true, brk := 1#15 } }, by decide⟩
theorem test_meets_ClosedGatesHideBreakpoints : on.itrig.gate = false ∧ on.dtrig.gate = false := by decide
theorem test_meets_SpecialModeKeepsEnable :
    (special true false false false true).ifctl.est = true ∧ ∃ t, retire draw plain (special true false false false true) = .next t :=
  ⟨rfl, _, rfl⟩
theorem test_meets_NothingTracedInDebugMode : (∃ s : State, s.debugMode = true ∧ s.ifctl.on = true) ∧ State.reset.ifctl.on = false :=
  ⟨⟨{ on with debugMode := true }, by decide⟩, rfl⟩
theorem test_meets_GeneratedMessagesAreWellFormed :
    on.dcyc ≠ 1023#10 ∧ ∃ t, handleEvent draw (.cp0Write 23 3 5#64) (special true false false false false) = .next t ∧ t.bus ≠ [] :=
  ⟨by decide, _, rfl, by decide⟩
theorem test_meets_SixteenSlotsDeliverWord :
    (∃ s : State, s.ifctl.ofc = true ∧ s.fifo = [0x3A#64] ∧ s.tx = none ∧ s.params.hasTrProbeN = false) ∧
    (∃ s : State, s.ifctl.ofc = true ∧ s.fifo = [0x3A#64] ∧ s.tx = none ∧ s.params.hasTrProbeN = true ∧
      s.params.probeGatesPort = true ∧ s.probeConnected = true) ∧
    (offChip.tx = none ∧ offChip.receiver.nibbles = [] ∧ offChip.probeConnected = true ∧ offChip.params.hasPib = true) ∧
    (∃ s : State, s.reader.active = false ∧ s.probeConnected = true ∧ s.tx = some { word := 0x3A#64, nibble := 0 } ∧
      s.receiver.nibbles = [] ∧ Framed 0x3A#64) :=
  ⟨⟨{ offChip with fifo := [0x3A#64] }, by decide⟩,
   ⟨{ offChip with fifo := [0x3A#64], params := { Config.sample with hasTrProbeN := true, probeGatesPort := true } }, by decide⟩,
   by decide, ⟨{ offChip with tx := some { word := 0x3A#64, nibble := 0 } }, rfl, rfl, rfl, rfl, by unfold Framed; decide⟩⟩
theorem test_meets_InhibitedOverflowLosesNothing :
    ∃ (s s' t : State) (i : Instr), s.ifctl.ofc = true ∧ s.ifctl.io = true ∧ s.reader.active = false ∧ busNext s = some (i, s') ∧
      exec i s' = .next t :=
  ⟨{ offChip with ifctl := { offChip.ifctl with io := true }, bus := [.nBt] }, _, _, .nBt, rfl, rfl, rfl, rfl, rfl⟩
theorem test_meets_StallHoldsTheCore :
    ∃ s : State, inStall s = true ∧ takeEvent s false [.retire plain, .pibTake] = some (.pibTake, [.retire plain]) :=
  ⟨{ offChip with ifctl := { offChip.ifctl with io := true }, fifo := [1#64, 2#64, 3#64, 4#64] }, by decide⟩
theorem test_meets_SentMessagesAreTheStream :
    (∀ i ∈ [Instr.nBt, .nRes], i ≠ .sRsv) ∧ offChip.reader.active = false ∧ inTraceOn offChip = true ∧ offChip.ifctl.ofc = true ∧
      offChip.acc.length < 58 ∧
      offChip.fifo.length + (offChip.acc.length + ([Instr.nBt, .nRes].flatMap encode).length) / 58 ≤ offChip.params.fifoWords ∧
      ∃ t, sendAll [.nBt, .nRes] offChip = .next t :=
  ⟨by decide, rfl, by decide, rfl, by decide, by decide, _, rfl⟩
/-- Two full PCs sent, flushed and read back: the second spans two words. -/
theorem test_sent_and_read_back :
    (nextState (andThen (sendAll [.nFpc 5#31 true, .nFpc 9#31 true] offChip) flush)).map
      (fun u => (u.fifo.length, readAll 5 (setReader (startReading false false (wholeCapture u.fifo)) u))) =
      some (2, [.nFpc 5#31 true, .nFpc 9#31 true]) := by decide
theorem test_meets_ReaderRecoversSentMessages :
    (∀ i ∈ [Instr.nFpc 5#31 true, .nFpc 9#31 true], i ≠ .sRsv ∧ i.fits false false = true) ∧
      (∀ i, [Instr.nFpc 5#31 true, .nFpc 9#31 true].getLast? = some i → isResume i = false) ∧ offChip.reader.active = false ∧
      inTraceOn offChip = true ∧ offChip.ifctl.ofc = true ∧ offChip.fifo = [] ∧ offChip.acc = [] ∧ offChip.firstStart = none ∧
      ([Instr.nFpc 5#31 true, .nFpc 9#31 true].flatMap encode).length / 58 + 1 ≤ offChip.params.fifoWords :=
  ⟨by decide, by simp [isResume], by decide, by decide, by decide, by decide, by decide, by decide, by decide⟩
theorem test_meets_ResetMeetsInv : Config.sample.wf = true := by decide

/-- The tracing state of these tests meets the invariant, and an instruction can retire in it. -/
theorem test_good_state : GoodState on :=
  { params := by decide, memory := by decide, range := by simp [on, State.reset, State.resetOf], readPointer := ⟨by decide, by decide⟩
    writePointer := ⟨by decide, by decide⟩
    ifctl := by unfold IfctlOk; decide
    acc := ⟨by decide, Nat.zero_le 56⟩, off := by decide, fifo := by decide, framed := by simp [on, State.reset, State.resetOf]
    sync := by decide, cycles := by decide, user := by decide, receiving := by decide, port := by decide, probe := by decide }

theorem test_meets_StepKeepsInv : GoodState { on with bus := [.nBt] } ∧ ∃ t, step { on with bus := [.nBt] } = .next t :=
  ⟨{ test_good_state with }, _, rfl⟩
theorem test_meets_InvStepNeverFaults : GoodState on := test_good_state

end Sys2Proof.Tests
end

section
/-! The bit layout of the normal-mode messages and of the special-mode messages without fields (R92 to R98, R104). -/

namespace Sys2Proof

/-! ### Where a field stands -/

/-- A one-bit field above the others stands at the number of bits below it. -/
theorem ofBits_concat (a : List Bool) (b : Bool) : ofBits (a ++ [b]) = ofBits a + 2 ^ a.length * b.toNat := by
  simp [ofBits_append, ofBits]

/-- A field directly above a type code stands at the number of bits of the code. -/
theorem ofBits_append_fieldBits {n : Nat} (code : List Bool) (v : BitVec n) :
    ofBits (code ++ fieldBits v) = ofBits code + 2 ^ code.length * v.toNat := by
  rw [ofBits_append, ofBits_fieldBits]

/-! ### Lengths and numbers, one pair per message with fields -/

theorem length_encode_nJ8 (d : BitVec 8) : (encode (.nJ8 d)).length = 12 := by
  simp [encode]

theorem messageNumber_nJ8 (d : BitVec 8) : messageNumber (.nJ8 d) = 0x3 + 2 ^ 4 * d.toNat :=
  ofBits_append_fieldBits [true, true, false, false] d

theorem length_encode_nJ16 (d : BitVec 16) : (encode (.nJ16 d)).length = 20 := by
  simp [encode]

theorem messageNumber_nJ16 (d : BitVec 16) : messageNumber (.nJ16 d) = 0xB + 2 ^ 4 * d.toNat :=
  ofBits_append_fieldBits [true, true, false, true] d

theorem length_encode_nFpc (pc : BitVec 31) (ncc : Bool) : (encode (.nFpc pc ncc)).length = 36 := by
  simp [encode]

/-- The NCC bit stands above the four bits of the type code and the 31 of the PC (R96). -/
theorem messageNumber_nFpc (pc : BitVec 31) (ncc : Bool) :
    messageNumber (.nFpc pc ncc) = 0x7 + 2 ^ 4 * pc.toNat + 2 ^ 35 * ncc.toNat := by
  have belowNcc : ([true, true, true, false] ++ fieldBits pc).length = 35 := by simp
  have codeAndPc : ofBits ([true, true, true, false] ++ fieldBits pc) = 0x7 + 2 ^ 4 * pc.toNat :=
    ofBits_append_fieldBits _ pc
  rw [messageNumber, encode, ofBits_concat, belowNcc, codeAndPc]

/-! ### The obligation -/

/-- Settles O4: the jumps and the full PC by the layout lemma of each, the fieldless messages by evaluating their type codes. -/
theorem normalBitLayout : Obligations.NormalBitLayout := by
  refine ⟨fun d => ⟨length_encode_nJ8 d, messageNumber_nJ8 d⟩, fun d => ⟨length_encode_nJ16 d, messageNumber_nJ16 d⟩,
    fun pc ncc => ⟨length_encode_nFpc pc ncc, messageNumber_nFpc pc ncc⟩, ?fieldless⟩
  case fieldless => decide

end Sys2Proof
end

section
/-! The cycles that count nothing: the clock stopped (R163), or trace off (R130). -/

namespace Sys2Proof.Machine

/-- A tick changes the state only with the clock running and trace on; otherwise its first guard answers (R130, R163). -/
theorem tick_eq_next_of_stopped_or_traceOff (d : Config.Draws) (clockRunning : Bool) (s : State)
    (idle : clockRunning = false ∨ inTraceOn s = false) : tick d clockRunning s = .next s := by
  have guard : (!clockRunning || !inTraceOn s) = true := by
    rcases idle with stopped | traceOff
    · simp [stopped]
    · simp [traceOff]
  rw [tick, if_pos guard]

/-- Settles O47: a tick event is a tick, and a tick with the clock stopped is idle whatever the trace-on condition. -/
theorem stoppedClockChangesNothing : Obligations.StoppedClockChangesNothing := by
  intro d s
  calc handleEvent d (.tick false) s = tick d false s := rfl
    _ = .next s := tick_eq_next_of_stopped_or_traceOff d false s (.inl rfl)

end Sys2Proof.Machine
end

section
/-! The register reads of IFCTL (R231) and of the two halves of ITCBTW (R236, R237). -/

namespace Sys2Proof.Machine

/-! ### Reads of registers that exist -/

/-- The decoding of an access (R61) adds nothing to the aligned 32-bit read of a register that this implementation has. -/
theorem regRead_word_eq_readWord32 {offset : Nat} {r : DrsegReg} {s : State} (assigned : drsegReg offset = some r)
    (present : needsTraceMemory r = true → s.params.hasOnchip = true) : regRead offset .word s = readWord32 r s := by
  have noRefusal : ¬ (needsTraceMemory r && !s.params.hasOnchip) = true := by simpa using present
  simp only [regRead, assigned, if_neg noRefusal, readRegister]

/-- With trace memory in use and ITCBRDP in it, a read of ITCBTW is answered: neither the refusal of R208 nor the fault of R62. -/
theorem readTraceWord_eq_returns {s : State} (v : TraceWord → BitVec 64) (k : State → State) (onChip : s.ifctl.ofc = false)
    (inRange : s.rdpAddr.toNat < 8 * s.params.tmemWords) :
    readTraceWord v k s = returns (v (readWord s s.rdpAddr.toNat)) (k s) := by
  have isWord : inTraceMemory s.params s.rdpAddr = true := decide_eq_true inRange
  rw [readTraceWord, if_neg (by simp [onChip]), if_pos isWord]

/-! ### The fields of IFCTL in the value read -/

section
variable (r : Ifctl)

/-- Above the 15 bits of the implemented fields stand the 16 reserved bits, and above those `Illegal` (R22, R24). -/
theorem getLsbD_ifctlValue_of_le {k : Nat} (above : 15 ≤ k) :
    (ifctlValue r).getLsbD k = (BitVec.ofBool r.illegal ++ 0#16).getLsbD (k - 15) := by
  simp (disch := omega) only [ifctlValue, BitVec.getLsbD_append, if_neg, Nat.sub_sub]

theorem getLsbD_ifctlValue_illegal : (ifctlValue r).getLsbD 31 = r.illegal := by
  rw [getLsbD_ifctlValue_of_le r (by decide), BitVec.getLsbD_append]
  simp

theorem getLsbD_ifctlValue_reserved {k : Nat} (above : 15 ≤ k) (below : k ≤ 30) : (ifctlValue r).getLsbD k = false := by
  have inZeros : k - 15 < 16 := by omega
  rw [getLsbD_ifctlValue_of_le r above, BitVec.getLsbD_append, if_pos inZeros, BitVec.getLsbD_zero]

/-- The mode bits CYC, FDT, BM, ER, FCR and EST stand in 14:9. -/
theorem getLsbD_ifctlValue_modeBits :
    (ifctlValue r).getLsbD 14 = r.cyc ∧ (ifctlValue r).getLsbD 13 = r.fdt ∧ (ifctlValue r).getLsbD 12 = r.bm ∧
      (ifctlValue r).getLsbD 11 = r.er ∧ (ifctlValue r).getLsbD 10 = r.fcr ∧ (ifctlValue r).getLsbD 9 = r.est := by
  simp only [ifctlValue, BitVec.getLsbD_append]
  simp

theorem extractLsb'_ifctlValue_syp : (ifctlValue r).extractLsb' 5 4 = r.syp := by
  refine BitVec.eq_of_getLsbD_eq fun j hj => ?_
  simp (disch := omega) only [ifctlValue, BitVec.getLsbD_extractLsb', BitVec.getLsbD_append, if_neg, if_pos, Nat.sub_sub,
    Nat.add_sub_cancel_left]
  simp [hj]

/-- The control bits OfClk, OfC, IO, En and On stand in 4:0. -/
theorem getLsbD_ifctlValue_controlBits :
    (ifctlValue r).getLsbD 4 = r.ofClk ∧ (ifctlValue r).getLsbD 3 = r.ofc ∧ (ifctlValue r).getLsbD 2 = r.io ∧
      (ifctlValue r).getLsbD 1 = r.en ∧ (ifctlValue r).getLsbD 0 = r.on := by
  simp only [ifctlValue, BitVec.getLsbD_append]
  simp

end

/-! ### The obligations -/

/-- Settles O26: IFCTL exists in every implementation, and its value holds each field at its place. -/
theorem ifctlReadReturnsFields : Obligations.IfctlReadReturnsFields := by
  intro s
  have answered : regRead 0x3FC0 .word s = .next { s with readData := (ifctlValue s.ifctl).setWidth 64 } :=
    regRead_word_eq_readWord32 (r := .ifctl) rfl nofun
  obtain ⟨cyc, fdt, bm, er, fcr, est⟩ := getLsbD_ifctlValue_modeBits s.ifctl
  exact ⟨ifctlValue s.ifctl, answered, getLsbD_ifctlValue_illegal _, fun _ => getLsbD_ifctlValue_reserved _,
    cyc, fdt, bm, er, fcr, est, extractLsb'_ifctlValue_syp _, getLsbD_ifctlValue_controlBits _⟩

/-- Settles O31: both halves are answered from the word at ITCBRDP, and only the lower one goes on by `advanceRead`. -/
theorem traceWordReads : Obligations.TraceWordReads := by
  intro s hasOnchip onChip inRange
  constructor
  case left =>
    calc regRead 0x3F80 .word s = readWord32 .itcbtwLow s := regRead_word_eq_readWord32 rfl fun _ => hasOnchip
      _ = returns (((readWord s s.rdpAddr.toNat).extractLsb' 0 32).setWidth 64) (advanceRead s) :=
        readTraceWord_eq_returns (fun w => (w.extractLsb' 0 32).setWidth 64) advanceRead onChip inRange
  case right =>
    calc regRead 0x3F84 .word s = readWord32 .itcbtwHigh s := regRead_word_eq_readWord32 rfl fun _ => hasOnchip
      _ = returns (((readWord s s.rdpAddr.toNat).extractLsb' 32 32).setWidth 64) s :=
        readTraceWord_eq_returns (fun w => (w.extractLsb' 32 32).setWidth 64) id onChip inRange

end Sys2Proof.Machine
end

section
/-! Decoding inverts encoding and the other way round, for one message and for a stream of them (R90 to R110). -/

namespace Sys2Proof

/-! ### Decoding what was encoded -/

/-- The DeltaCycle field is there exactly when the mode has one, so taking it gives back what the encoding put there (R105). -/
theorem takeDelta_deltaBits_of_isSome {cyc : Bool} {dc : Option (BitVec 10)} (present : dc.isSome = cyc) (rest : List Bool)
    (k : Option (BitVec 10) → List Bool → Decoded) : takeDelta cyc (deltaBits dc ++ rest) k = k dc rest := by
  rw [← present, takeDelta_deltaBits]

theorem decode_special (cyc : Bool) (bits : List Bool) : decode true cyc bits = decodeSpecial cyc bits := rfl

theorem decode_normal (cyc : Bool) (bits : List Bool) : decode false cyc bits = decodeNormal bits := rfl

/-- The mode a message fits, in the terms of its constructor: its set, and its DeltaCycle field (R90, R105). -/
theorem fits_iff (est cyc : Bool) (i : Instr) :
    i.fits est cyc = true ↔ i.isSpecial = est ∧ ∀ dc, i.delta = some dc → dc.isSome = cyc := by
  cases hd : i.delta <;> simp [Instr.fits, hd]

/-- Settles O1: the type code selects the arm, and each field taken is the field put there. -/
theorem decodeInvertsEncode : Obligations.DecodeInvertsEncode := by
  intro est cyc i rest fits
  obtain ⟨rfl, delta⟩ := (fits_iff est cyc i).mp fits
  cases i with
  | nSeq | nBt | nRes | sDcr | sRsv | sRes => rfl
  | nJ8 | nJ16 | nFpc => simp [encode, Instr.isSpecial, decode_normal, decodeNormal]
  | sUtm _ _ dc | sBm _ _ _ _ dc | sFd _ _ _ _ _ dc | sFce _ _ _ _ _ dc =>
    have present : dc.isSome = cyc := delta dc rfl
    simp [encode, Instr.isSpecial, decode_special, decodeSpecial, takeDelta_deltaBits_of_isSome present]

/-! ### Encoding what was decoded -/

/-- A field that was taken stands at the head of the bits. -/
theorem takeField_eq_message {n : Nat} {bits rest : List Bool} {k : BitVec n → List Bool → Decoded} {i : Instr} :
    takeField n bits k = .message i rest ↔ ∃ v r, bits = fieldBits v ++ r ∧ k v r = .message i rest := by
  constructor
  case mp =>
    intro h
    unfold takeField at h
    split at h
    · cases h
    · refine ⟨_, _, ?_, h⟩
      rw [fieldBits_ofNat_ofBits _ _ (by simp; omega), List.take_append_drop]
  case mpr =>
    rintro ⟨v, r, rfl, h⟩
    rwa [takeField_fieldBits]

theorem takeFlag_eq_message {bits rest : List Bool} {k : Bool → List Bool → Decoded} {i : Instr} :
    takeFlag bits k = .message i rest ↔ ∃ b r, bits = b :: r ∧ k b r = .message i rest := by
  cases bits <;> simp [takeFlag]

theorem takeDelta_eq_message {cyc : Bool} {bits rest : List Bool} {k : Option (BitVec 10) → List Bool → Decoded} {i : Instr} :
    takeDelta cyc bits k = .message i rest ↔
      ∃ dc r, dc.isSome = cyc ∧ bits = deltaBits dc ++ r ∧ k dc r = .message i rest := by
  cases cyc with
  | false => simp [takeDelta, deltaBits]
  | true => simp [takeDelta, takeField_eq_message, Option.isSome_iff_exists, deltaBits]

theorem decodeNormal_message {bits rest : List Bool} {i : Instr} (cyc : Bool) (h : decodeNormal bits = .message i rest) :
    i.fits false cyc = true ∧ encode i ++ rest = bits := by
  unfold decodeNormal at h
  split at h <;> simp only [takeField_eq_message, takeFlag_eq_message, Decoded.message.injEq, reduceCtorEq] at h
  case h_1 | h_2 | h_6 =>
    obtain ⟨rfl, rfl⟩ := h
    exact ⟨rfl, rfl⟩
  case h_3 | h_4 =>
    obtain ⟨d, r, rfl, rfl, rfl⟩ := h
    exact ⟨rfl, rfl⟩
  case h_5 =>
    obtain ⟨pc, r, rfl, ncc, r, rfl, rfl, rfl⟩ := h
    simp [encode, Instr.fits, Instr.isSpecial, Instr.delta]

theorem decodeSpecial_message {cyc : Bool} {bits rest : List Bool} {i : Instr} (h : decodeSpecial cyc bits = .message i rest) :
    i.fits true cyc = true ∧ encode i ++ rest = bits := by
  unfold decodeSpecial at h
  split at h <;>
    simp only [takeField_eq_message, takeFlag_eq_message, takeDelta_eq_message, Decoded.message.injEq, reduceCtorEq] at h
  case h_1 | h_3 | h_7 =>
    obtain ⟨rfl, rfl⟩ := h
    exact ⟨rfl, rfl⟩
  case h_2 =>
    obtain ⟨data, r, rfl, utm2, r, rfl, dc, r, rfl, rfl, rfl, rfl⟩ := h
    simp [encode, Instr.fits, Instr.isSpecial, Instr.delta]
  case h_4 =>
    obtain ⟨id, r, rfl, ib, r, rfl, pc, r, rfl, ncc, r, rfl, dc, r, rfl, rfl, rfl, rfl⟩ := h
    simp [encode, Instr.fits, Instr.isSpecial, Instr.delta]
  case h_5 =>
    obtain ⟨id, r, rfl, load, r, rfl, full, r, rfl, addr, r, rfl, field, r, rfl, dc, r, rfl, rfl, rfl, rfl⟩ := h
    simp [encode, Instr.fits, Instr.isSpecial, Instr.delta]
  case h_6 =>
    obtain ⟨fc, r, rfl, ex, r, rfl, ret, r, rfl, pc, r, rfl, ncc, r, rfl, dc, r, rfl, rfl, rfl, rfl⟩ := h
    simp [encode, Instr.fits, Instr.isSpecial, Instr.delta]

/-! ### The code sets are complete (R109) -/

/-- Decoding answers a message. -/
def Decoded.isMessage (d : Decoded) : Prop :=
  ∃ i rest, d = .message i rest

theorem isMessage_message (i : Instr) (rest : List Bool) : (Decoded.message i rest).isMessage :=
  ⟨i, rest, rfl⟩

/-- With `n` bits for the field and `m` for what follows it, taking the field cannot end inside the message. -/
theorem takeField_isMessage {n : Nat} (m : Nat) {bits : List Bool} {k : BitVec n → List Bool → Decoded}
    (long : n + m ≤ bits.length) (go : ∀ v r, m ≤ r.length → (k v r).isMessage) : (takeField n bits k).isMessage := by
  rw [takeField, if_neg (by omega)]
  exact go _ _ (by simp; omega)

theorem takeFlag_isMessage (m : Nat) {bits : List Bool} {k : Bool → List Bool → Decoded}
    (long : 1 + m ≤ bits.length) (go : ∀ b r, m ≤ r.length → (k b r).isMessage) : (takeFlag bits k).isMessage := by
  cases bits with
  | nil => simp at long
  | cons b r => exact go b r (by simp at long; omega)

theorem takeDelta_isMessage {cyc : Bool} {bits : List Bool} {k : Option (BitVec 10) → List Bool → Decoded}
    (long : 10 ≤ bits.length) (go : ∀ dc r, (k dc r).isMessage) : (takeDelta cyc bits k).isMessage := by
  cases cyc with
  | false => exact go none bits
  | true => exact takeField_isMessage 0 long fun v r _ => go (some v) r

theorem decodeNormal_isMessage {bits : List Bool} (long : 57 ≤ bits.length) : (decodeNormal bits).isMessage := by
  unfold decodeNormal
  split
  case h_3 | h_4 => exact takeField_isMessage 0 (by simp at long; omega) fun _ _ _ => isMessage_message _ _
  case h_5 =>
    exact takeField_isMessage 1 (by simp at long; omega) fun _ _ h =>
      takeFlag_isMessage 0 h fun _ _ _ => isMessage_message _ _
  case h_1 | h_2 | h_6 => exact isMessage_message _ _
  all_goals simp at long

theorem decodeSpecial_isMessage {cyc : Bool} {bits : List Bool} (long : 57 ≤ bits.length) :
    (decodeSpecial cyc bits).isMessage := by
  unfold decodeSpecial
  split
  case h_2 =>
    exact takeField_isMessage 11 (by simp at long; omega) fun _ _ h => takeFlag_isMessage 10 h fun _ _ h =>
      takeDelta_isMessage h fun _ _ => isMessage_message _ _
  case h_4 =>
    exact takeField_isMessage 43 (by simp at long; omega) fun _ _ h => takeFlag_isMessage 42 h fun _ _ h =>
      takeField_isMessage 11 h fun _ _ h => takeFlag_isMessage 10 h fun _ _ h =>
      takeDelta_isMessage h fun _ _ => isMessage_message _ _
  case h_5 =>
    exact takeField_isMessage 50 (by simp at long; omega) fun _ _ h => takeFlag_isMessage 49 h fun _ _ h =>
      takeFlag_isMessage 48 h fun _ _ h => takeField_isMessage 42 h fun _ _ h =>
      takeField_isMessage 10 h fun _ _ h => takeDelta_isMessage h fun _ _ => isMessage_message _ _
  case h_6 =>
    exact takeFlag_isMessage 44 (by simp at long; omega) fun _ _ h => takeFlag_isMessage 43 h fun _ _ h =>
      takeFlag_isMessage 42 h fun _ _ h => takeField_isMessage 11 h fun _ _ h => takeFlag_isMessage 10 h fun _ _ h =>
      takeDelta_isMessage h fun _ _ => isMessage_message _ _
  case h_1 | h_3 | h_7 => exact isMessage_message _ _
  all_goals simp at long

/-- Settles O2: each field taken is a part of the bits, and 57 bits are enough for the fields of every arm. -/
theorem encodeInvertsDecode : Obligations.EncodeInvertsDecode := by
  constructor
  case left =>
    intro est cyc bits rest i h
    cases est with
    | false => exact decodeNormal_message cyc h
    | true => exact decodeSpecial_message h
  case right =>
    intro est cyc bits long
    cases est with
    | false => exact decodeNormal_isMessage long
    | true => exact decodeSpecial_isMessage long

/-! ### A stream of messages -/

/-- Settles O3, by induction on the messages: each is decoded from in front of the bits of those after it. -/
theorem streamDecodesToMessages : Obligations.StreamDecodesToMessages := by
  intro est cyc ms tail fit
  induction ms with
  | nil => rfl
  | cons m ms ih =>
    have head : decode est cyc (encode m ++ (ms.flatMap encode ++ tail)) = .message m (ms.flatMap encode ++ tail) :=
      decodeInvertsEncode est cyc m _ (fit m (List.mem_cons_self ..)).2
    have later := ih fun i hi => fit i (List.mem_cons_of_mem _ hi)
    simp [decodeStream, List.flatMap_cons, List.append_assoc, head, later]

end Sys2Proof
end

section
/-! The bit layout of the special-mode messages with fields (R99, R101 to R103, R105), and the spec's vectors. -/

namespace Sys2Proof

/-- The DeltaCycle field counts for its value, and for nothing where there is none. -/
theorem ofBits_deltaBits (dc : Option (BitVec 10)) : ofBits (deltaBits dc) = (dc.getD 0#10).toNat := by
  cases dc with
  | none => rfl
  | some d => exact ofBits_fieldBits d

/-- Settles O5: the fields of a message stand one above the other, each at the number of bits below it. -/
theorem specialBitLayout : Obligations.SpecialBitLayout := by
  refine ⟨fun data utm2 dc => ⟨?utmLength, ?utmNumber⟩, fun id ib pc ncc dc => ⟨?bmLength, ?bmNumber⟩,
    fun id load full addr field dc => ⟨?fdLength, ?fdNumber⟩, fun fc ex r pc ncc dc => ⟨?fceLength, ?fceNumber⟩⟩
  case utmLength | bmLength | fdLength | fceLength => cases dc <;> simp [encode, deltaBits]
  all_goals
    simp only [messageNumber, encode, ofBits_append, ofBits_fieldBits, ofBits_deltaBits, ofBits, List.length_append,
      length_fieldBits, List.length_cons, List.length_nil, Bool.toNat_true, Bool.toNat_false]
    omega

/-- Settles O6: each vector is a closed bit string. -/
theorem specVectorsDecode : Obligations.SpecVectorsDecode := by
  unfold Obligations.SpecVectorsDecode
  decide

end Sys2Proof
end

section
/-! The trace word and its tag (R112 to R114). -/

namespace Sys2Proof

theorem wordData_packWord {data : List Bool} (full : data.length = 58) (tag : BitVec 6) : wordData (packWord data tag) = data := by
  rw [wordData, packWord, BitVec.extractLsb'_append_eq_left, fieldBits_ofNat_ofBits data 58 full]

theorem wordTag_packWord (data : List Bool) (tag : BitVec 6) : wordTag (packWord data tag) = tag := by
  rw [wordTag, packWord, BitVec.extractLsb'_append_eq_right]

/-- The tags of the 57 starts that the unit can form, each evaluated (R113, R114). -/
theorem decTag_encTag {start : Nat} (inWord : start ≤ 56) : decTag (encTag start) = some start := by
  have everyStart : ∀ k : Fin 57, decTag (encTag k) = some k.val := by decide
  exact everyStart ⟨start, by omega⟩

theorem encTag_first_nibble {start : Nat} (inWord : start ≤ 56) : (encTag start).extractLsb' 0 4 ≠ 0#4 := by
  have everyStart : ∀ k : Fin 57, (encTag k).extractLsb' 0 4 ≠ 0#4 := by decide
  exact everyStart ⟨start, by omega⟩

/-- Settles O7: data and tag are the two halves of an append, and the tags are evaluated. -/
theorem traceWordHoldsDataAndTag : Obligations.TraceWordHoldsDataAndTag :=
  ⟨fun data tag full => ⟨wordData_packWord full tag, wordTag_packWord data tag⟩,
    fun _ inWord => ⟨decTag_encTag inWord, encTag_first_nibble inWord⟩⟩

end Sys2Proof
end

section
/-! What one step does: the reader's fetch, the bus, the events (logs 3 and 4). -/

namespace Sys2Proof.Machine

/-! ### A step of an active reader -/

theorem step_of_active {s : State} (active : s.reader.active = true) : step s = readerStep s := by
  rw [step, stepWith, if_pos active]

theorem readerStep_of_message {s : State} {i : Instr} {r : Reader} (fetch : readerFetch s.reader = .message i r) :
    readerStep s = exec i (setReader r s) := by
  rw [readerStep, fetch]

theorem readerStep_of_moved {s : State} {r : Reader} (fetch : readerFetch s.reader = .moved r) :
    readerStep s = .next (setReader r s) := by
  rw [readerStep, fetch]

theorem readerFetch_of_decode {r : Reader} {i : Instr} {rest : List Bool} (aligned : r.aligned = true) (noFill : atFill r = false)
    (message : decode r.est r.cyc r.bits = .message i rest) : readerFetch r = .message i { r with bits := rest } := by
  simp [readerFetch, readerDecode, noFill, aligned, message]

theorem readerFetch_of_atFill {r : Reader} (fill : atFill r = true) : readerFetch r = .moved (stopReading r) := by
  rw [readerFetch, if_pos fill]

/-- Without a whole message behind a boundary the reader moves on. -/
theorem readerFetch_of_noMessage {r : Reader} (noFill : atFill r = false)
    (noMessage : r.aligned = false ∨ decode r.est r.cyc r.bits = .truncated) : readerFetch r = .moved (advanceReader r) := by
  have truncated : readerDecode r = .truncated := by
    rcases noMessage with unaligned | truncated
    · simp [readerDecode, unaligned]
    · simp [readerDecode, truncated]
  simp [readerFetch, noFill, truncated]

/-- Settles O8: the fetch of a reader at a message is that message, and the step runs it. -/
theorem stepRunsDecodedMessage : Obligations.StepRunsDecodedMessage := by
  intro s i rest active aligned noFill message
  rw [step_of_active active, readerStep_of_message (readerFetch_of_decode aligned noFill message)]
  rfl

/-! ### A placed instruction -/

/-- A word that is one message in a mode: no bit is set above the message. -/
theorem exactMessage_some {m : ReadMode} {w : Nat} {i : Instr} (h : exactMessage m w = some i) :
    ∃ rest, decode m.1 m.2 (toBits longestMessage w) = .message i rest ∧ rest.any id = false := by
  unfold exactMessage at h
  split at h
  · cases h
  · rename_i j rest decoded
    split at h
    · cases h
    · rename_i clear
      cases h
      exact ⟨rest, decoded, by simpa using clear⟩

theorem decodeTableWord_some {nbits w : Nat} {i : Instr} (h : decodeTableWord nbits w = some i) :
    ∃ m, tableMode nbits w = some m ∧ exactMessage m w = some i := by
  unfold decodeTableWord at h
  split at h
  · cases h
  · exact ⟨_, ‹_›, h⟩

/-- A word of ones reads as a resumption message with ones above it, so it is no exact message. -/
theorem not_all_ones_of_exactMessage {m : ReadMode} {w : Nat} {i : Instr} {rest : List Bool}
    (message : decode m.1 m.2 (toBits longestMessage w) = .message i rest) (clear : rest.any id = false) :
    (toBits longestMessage w).all id = false := by
  by_contra ones
  have bits : toBits longestMessage w = List.replicate 57 true := by
    refine List.eq_replicate_iff.mpr ⟨length_toBits _ _, fun b hb => ?_⟩
    cases b with
    | true => rfl
    | false => exact absurd hb (by simpa using ones)
  have resume : decode m.1 m.2 (List.replicate 57 true) = .message (if m.1 then .sRes else .nRes) (List.replicate 53 true) := by
    cases m.1 <;> rfl
  rw [bits, resume] at message
  cases message
  exact absurd clear (by decide)

/-- Settles O9: the mode the decoder picked is the one the reader is placed in, so its fetch is the decoder's message. -/
theorem stepRunsPlacedInstruction : Obligations.StepRunsPlacedInstruction := by
  intro s nbits w i table
  obtain ⟨m, mode, whole⟩ := decodeTableWord_some table
  obtain ⟨rest, message, clear⟩ := exactMessage_some whole
  have placed : s.withFetchWord nbits w = setReader (readingBits m.1 m.2 (toBits longestMessage w) s.reader) s := by
    rw [State.withFetchWord, mode]
  have noFill : atFill (readingBits m.1 m.2 (toBits longestMessage w) s.reader) = false := by
    simp [atFill, readingBits, not_all_ones_of_exactMessage message clear]
  refine ⟨m.1, m.2, rest, ?_⟩
  rw [placed, step_of_active rfl, readerStep_of_message (readerFetch_of_decode rfl noFill message)]
  rfl

/-! ### A step of the unit -/

theorem step_of_idle {s : State} (idle : s.reader.active = false) (noTx : s.tx = none) :
    step s = unitStep (Config.draws s.drawIndex) s := by
  simp [step, stepWith, idle, noTx]

theorem busNext_cons {s : State} {i : Instr} {rest : List Instr} (bus : s.bus = i :: rest)
    (notHeld : sendHeld (busHead i rest s).1 s = false) : busNext s = some (busHead i rest s) := by
  simp [busNext, bus, notHeld]

theorem busHead_of_noResume {s : State} {i : Instr} (rest : List Instr)
    (h : s.discont = false ∨ isResume i = true ∨ inTraceOn s = false) : busHead i rest s = (i, { s with bus := rest }) := by
  rcases h with h | h | h <;> simp [busHead, h]

theorem busHead_of_resume {s : State} {i : Instr} (rest : List Instr) (discont : s.discont = true) (traceOn : inTraceOn s = true)
    (other : isResume i = false) : busHead i rest s = (resumeMessage s.ifctl, s) := by
  simp [busHead, discont, traceOn, other]

theorem unitStep_of_busNext {d : Config.Draws} {s s' : State} {i : Instr} (next : busNext s = some (i, s')) :
    unitStep d s = exec i s' := by
  rw [unitStep, next]

/-- With no message to take and no trigger to act, the unit looks for an event. -/
theorem unitStep_of_noMessage {d : Config.Draws} {s : State} (noMessage : busNext s = none)
    (noTrigger : s.bus ≠ [] ∨ s.latchedEn = none) : unitStep d s = eventStep d s := by
  simp only [unitStep, noMessage]
  split
  · rename_i bus latched
    rcases noTrigger with onBus | noLatch
    · exact absurd bus onBus
    · simp [noLatch] at latched
  · rfl

theorem unitStep_of_latched {d : Config.Draws} {s : State} {b : Bool} (noBus : s.bus = []) (latched : s.latchedEn = some b) :
    unitStep d s = .next (applyLatched d b (tookDraw s)) := by
  simp [unitStep, busNext, noBus, latched]

theorem eventStep_of_takeEvent {d : Config.Draws} {s : State} {e : Event} {rest : List Event}
    (taken : takeEvent s false s.events = some (e, rest)) :
    eventStep d s = handleEvent d e { s with events := rest, drawIndex := s.drawIndex + 1 } := by
  rw [eventStep, taken]
  rfl

/-- Settles O10: the bus is asked first, then the latched trigger, then the list of events. -/
theorem stepRunsBusMessageOrEvent : Obligations.StepRunsBusMessageOrEvent := by
  refine ⟨fun s i rest idle noTx bus => ⟨fun noResume notHeld => ?message, fun discont traceOn other notHeld => ?resume⟩,
    fun s b idle noTx noBus latched => ?trigger, fun s e rest idle noTx quiet taken => ?event⟩
  case message =>
    have head := busHead_of_noResume rest noResume
    have next := busNext_cons bus (by rw [head]; exact notHeld)
    rw [step_of_idle idle noTx, unitStep_of_busNext (next.trans (congrArg some head))]
  case resume =>
    have head := busHead_of_resume rest discont traceOn other
    have next := busNext_cons bus (by rw [head]; exact notHeld)
    rw [step_of_idle idle noTx, unitStep_of_busNext (next.trans (congrArg some head))]
  case trigger =>
    rw [step_of_idle idle noTx, unitStep_of_latched noBus latched]
    rfl
  case event =>
    have noMessage : busNext s = none := by
      rcases quiet with ⟨noBus, -⟩ | ⟨i, ms, bus, held⟩
      · simp [busNext, noBus]
      · simp [busNext, bus, held]
    have noTrigger : s.bus ≠ [] ∨ s.latchedEn = none := by
      rcases quiet with ⟨-, noLatch⟩ | ⟨i, ms, bus, -⟩
      · exact .inr noLatch
      · exact .inl (by simp [bus])
    rw [step_of_idle idle noTx, unitStep_of_noMessage noMessage noTrigger, eventStep_of_takeEvent taken]

end Sys2Proof.Machine
end

section
/-! The messages on the reader's side and the words the reader takes (R133 to R138, R144, R164 to R178, R216). -/

namespace Sys2Proof.Machine

/-! ### The replay of normal mode (R144) -/

theorem replayNext_of_synced {r : Reader} (pc : Word) (synced : r.synced = true) :
    replayNext pc r = { r with pc := pc, history := (pc, r.ncc) :: r.history, reports := .executed pc r.ncc :: r.reports } := by
  rw [replayNext, if_pos synced, replayAt, ← synced]

theorem replayNext_of_lost {r : Reader} (pc : Word) (lost : r.synced = false) :
    replayNext pc r = { r with reports := .executedUnknown :: r.reports } := by
  simp [replayNext, lost, addReport]

/-- A message of normal mode that stands for one instruction replays it, at the address the message gives. -/
theorem exec_flow_reader {s : State} (active : s.reader.active = true) :
    exec .nSeq s = .next (setReader (replayNext (Config.seqNext s.reader.pc s.reader.ncc) s.reader) s) ∧
    exec .nBt s = .next (setReader (replayNext (Config.staticTarget s.reader.history) s.reader) s) ∧
    (∀ d, exec (.nJ8 d) s = .next (setReader (replayNext (s.reader.pc + offset8 d) s.reader) s)) ∧
    (∀ d, exec (.nJ16 d) s = .next (setReader (replayNext (s.reader.pc + offset16 d) s.reader) s)) := by
  simp [exec, execNSeq, execNBt, execNJ8, execNJ16, active]

/-- Settles O11: each message is a replay at its address, and the replay follows the synchronisation. -/
theorem readerReplaysFlow : Obligations.ReaderReplaysFlow := by
  intro s active
  obtain ⟨seq, bt, j8, j16⟩ := exec_flow_reader active
  refine ⟨fun synced i pc flow => ?synced, fun lost i flow => ?lost, fun pc ncc => ?fullPc, ?gap⟩
  case synced =>
    have replay := replayNext_of_synced (r := s.reader) pc synced
    rcases flow with ⟨rfl, rfl⟩ | ⟨rfl, rfl⟩ | ⟨d, rfl, rfl⟩ | ⟨d, rfl, rfl⟩
    · rw [seq, replay]; rfl
    · rw [bt, replay]; rfl
    · rw [j8, offset8, replay]; rfl
    · rw [j16, offset16, replay]; rfl
  case lost =>
    rcases flow with rfl | rfl | ⟨d, rfl⟩ | ⟨d, rfl⟩
    · rw [seq, replayNext_of_lost _ lost]; rfl
    · rw [bt, replayNext_of_lost _ lost]; rfl
    · rw [j8, replayNext_of_lost _ lost]; rfl
    · rw [j16, replayNext_of_lost _ lost]; rfl
  case fullPc => simp [exec, execNFpc, active, replayAt, setReader, fieldPc]
  case gap => simp [exec, execNRes, active, replayGap, setReader]

/-! ### The reports of special mode (R178) -/

/-- Settles O12: each message reports itself, with the time that its DeltaCycle operand makes. -/
theorem readerReportsEvents : Obligations.ReaderReportsEvents := by
  intro s dc time active timed
  have timeOf : reportTime dc s.reader = time := by
    rcases timed with ⟨rfl, rfl⟩ | ⟨d, rfl, rfl⟩ <;> rfl
  refine ⟨fun _ _ => ?utm, fun _ _ _ _ => ?bm, fun _ _ _ _ => ?fullWord, fun _ _ _ _ => ?partWord, fun _ _ _ _ _ => ?fce⟩
  case utm => simp [exec, execSUtm, active, reportEvent, setReader, timeOf]
  case bm => simp [exec, execSBm, active, reportEvent, setReader, fieldPc, timeOf]
  case fullWord | partWord => simp [exec, execSFd, active, reportEvent, setReader, fieldEnables, fieldValue, timeOf]
  case fce => simp [exec, execSFce, active, reportEvent, setReader, fieldPc, timeOf]

/-- Settles O13: the decoder effects of the three messages without operands. -/
theorem readerCountsAndAbandons : Obligations.ReaderCountsAndAbandons := by
  intro s active
  simp [exec, execSDcr, execSRes, execSRsv, active, setReader, readRollover, readResume, abandonWord]

/-! ### The frame -/

/-- What a message leaves alone in the reader: it stays at work in its mode, before the same words. -/
def KeepsReading (r r' : Reader) : Prop :=
  r'.active = r.active ∧ r'.est = r.est ∧ r'.cyc = r.cyc ∧ r'.words = r.words

/-- It stays before the same bits too. -/
def KeepsBits (r r' : Reader) : Prop :=
  r'.bits = r.bits ∧ r'.aligned = r.aligned

theorem replayNext_keeps (pc : Word) (r : Reader) : KeepsReading r (replayNext pc r) ∧ KeepsBits r (replayNext pc r) := by
  cases synced : r.synced
  · rw [replayNext_of_lost pc synced]
    exact ⟨⟨rfl, rfl, rfl, rfl⟩, rfl, rfl⟩
  · rw [replayNext_of_synced pc synced]
    exact ⟨⟨rfl, rfl, rfl, rfl⟩, rfl, rfl⟩

/-- A message on the reader's side: the reader goes on in its mode before the same words, and but for S.RSV before the same bits. -/
theorem exec_reader_keeps (i : Instr) (s : State) (active : s.reader.active = true) :
    ∃ r, exec i s = .next (setReader r s) ∧ KeepsReading s.reader r ∧ (i ≠ .sRsv → KeepsBits s.reader r) := by
  obtain ⟨seq, bt, j8, j16⟩ := exec_flow_reader active
  cases i with
  | nSeq => exact ⟨_, seq, (replayNext_keeps _ _).1, fun _ => (replayNext_keeps _ _).2⟩
  | nBt => exact ⟨_, bt, (replayNext_keeps _ _).1, fun _ => (replayNext_keeps _ _).2⟩
  | nJ8 d => exact ⟨_, j8 d, (replayNext_keeps _ _).1, fun _ => (replayNext_keeps _ _).2⟩
  | nJ16 d => exact ⟨_, j16 d, (replayNext_keeps _ _).1, fun _ => (replayNext_keeps _ _).2⟩
  | sRsv => exact ⟨_, if_pos active, ⟨rfl, rfl, rfl, rfl⟩, fun h => absurd rfl h⟩
  | nFpc | nRes | sDcr | sUtm | sBm | sFd | sFce | sRes =>
    exact ⟨_, if_pos active, ⟨rfl, rfl, rfl, rfl⟩, fun _ => ⟨rfl, rfl⟩⟩

/-- Settles O14: the next state is the state with another reader, and that reader keeps its place. -/
theorem readerMessageFrame : Obligations.ReaderMessageFrame := by
  intro i s t active run
  obtain ⟨r, ran, ⟨act, est, cyc, words⟩, bits⟩ := exec_reader_keeps i s active
  cases ran.symm.trans run
  exact ⟨rfl, fun _ => rfl, act.trans active, est, cyc, words, bits⟩

/-! ### From words to messages (R110, R114, R116, R216) -/

theorem takeWordBits_of_corrupt {w : TraceWord} (rest : List Captured) (r : Reader) (corrupt : decTag (wordTag w) = none) :
    takeWordBits w rest r = loseBoundary .corruptWord { r with words := rest } := by
  rw [takeWordBits, corrupt]

section
variable {w : TraceWord} {rest : List Captured} {r : Reader} {start : Nat} (tag : decTag (wordTag w) = some start)
include tag

theorem takeWordBits_of_unaligned (unaligned : r.aligned = false) :
    takeWordBits w rest r = { r with words := rest, bits := (wordData w).drop start, aligned := true } := by
  simp [takeWordBits, tag, unaligned]

theorem takeWordBits_of_joined (aligned : r.aligned = true) (joins : start ≠ 0 ∨ r.bits = []) :
    takeWordBits w rest r = { r with words := rest, bits := r.bits ++ wordData w } := by
  rcases joins with joins | joins <;> simp [takeWordBits, tag, aligned, joins]

theorem takeWordBits_of_cut (aligned : r.aligned = true) (atZero : start = 0) (expected : r.bits ≠ []) :
    takeWordBits w rest r = { r with words := rest, bits := wordData w, reports := .cutMessage :: r.reports } := by
  simp [takeWordBits, tag, aligned, atZero, expected]

end

/-- Settles O15: at fill the fetch stops; else it takes the next word, by the tag of that word. -/
theorem readerTakesWords : Obligations.ReaderTakesWords := by
  intro s active
  refine ⟨fun fill => ?fill, fun noFill noMessage => ?word⟩
  case fill =>
    rw [step_of_active active, readerStep_of_moved (readerFetch_of_atFill fill)]
    rfl
  case word =>
    have moves : step s = .next (setReader (advanceReader s.reader) s) := by
      rw [step_of_active active, readerStep_of_moved (readerFetch_of_noMessage noFill noMessage)]
    refine ⟨fun noWords => ?_, fun w rest start tag => ⟨fun words unaligned => ?_, fun words aligned joins => ?_,
      fun words aligned atZero expected => ?_, fun words => ?_⟩, fun w rest corrupt words => ?_⟩
    all_goals rw [moves, advanceReader]
    · rw [noWords]; rfl
    · rw [words]
      exact congrArg (fun r => Host.Outcome.next (setReader r s)) (takeWordBits_of_unaligned tag unaligned)
    · rw [words]
      exact congrArg (fun r => Host.Outcome.next (setReader r s)) (takeWordBits_of_joined tag aligned joins)
    · rw [words]
      exact congrArg (fun r => Host.Outcome.next (setReader r s)) (takeWordBits_of_cut tag aligned atZero expected)
    · rw [words]
      exact congrArg (fun r => Host.Outcome.next (setReader r s)) (takeWordBits_of_unaligned tag rfl)
    · rw [words]
      exact congrArg (fun r => Host.Outcome.next (setReader r s)) (takeWordBits_of_corrupt rest s.reader corrupt)

end Sys2Proof.Machine
end

section
/-! The messages on the unit's side: what an emission writes, and what it leaves alone (R202 to R209). -/

namespace Sys2Proof.Machine

/-! ### Where a message is emitted from -/

theorem startPosition_eq (s : State) : startPosition s = s.firstStart.getD s.acc.length := by
  cases h : s.firstStart <;> simp [startPosition, h]

/-- What the rule of a message writes before its emission: the last traced instruction, the marks and the cycle count. -/
theorem beforeEmit_eq (i : Instr) (s : State) : beforeEmit i s = { s with
    lastPc := (beforeEmit i s).lastPc, lastNcc := (beforeEmit i s).lastNcc, needFullPc := (beforeEmit i s).needFullPc
    discont := (beforeEmit i s).discont, dcyc := (beforeEmit i s).dcyc } := by
  cases i <;> rfl

section
variable (i : Instr) (s : State)

@[simp] theorem beforeEmit_params : (beforeEmit i s).params = s.params := by rw [beforeEmit_eq]
@[simp] theorem beforeEmit_ifctl : (beforeEmit i s).ifctl = s.ifctl := by rw [beforeEmit_eq]
@[simp] theorem beforeEmit_wrpAddr : (beforeEmit i s).wrpAddr = s.wrpAddr := by rw [beforeEmit_eq]
@[simp] theorem beforeEmit_wrpWrap : (beforeEmit i s).wrpWrap = s.wrpWrap := by rw [beforeEmit_eq]
@[simp] theorem beforeEmit_tmem : (beforeEmit i s).tmem = s.tmem := by rw [beforeEmit_eq]
@[simp] theorem beforeEmit_acc : (beforeEmit i s).acc = s.acc := by rw [beforeEmit_eq]
@[simp] theorem beforeEmit_firstStart : (beforeEmit i s).firstStart = s.firstStart := by rw [beforeEmit_eq]
@[simp] theorem beforeEmit_fifo : (beforeEmit i s).fifo = s.fifo := by rw [beforeEmit_eq]
@[simp] theorem beforeEmit_debugMode : (beforeEmit i s).debugMode = s.debugMode := by rw [beforeEmit_eq]
@[simp] theorem beforeEmit_reader : (beforeEmit i s).reader = s.reader := by rw [beforeEmit_eq]

@[simp] theorem beforeEmit_startPosition : startPosition (beforeEmit i s) = startPosition s := by
  simp [startPosition_eq]

end

/-! ### What an emission does -/

/-- The word that an emission of `m` completes (R202, R203). -/
def completedWord (m : List Bool) (s : State) : TraceWord :=
  packWord ((s.acc ++ m).take 58) (encTag (s.firstStart.getD s.acc.length))

theorem takeWord_accumulate (m : List Bool) (s : State) :
    takeWord (accumulate m s) = (completedWord m s, { s with acc := (s.acc ++ m).drop 58, firstStart := none }) := by
  simp [takeWord, completedWord, startPosition_eq, accumulate]

/-- The Wrap flag behind a word stored at the top or below it (R207). -/
theorem wrapAfter_eq (top : Prop) [Decidable top] (wrap : Bool) : wrapAfter (decide top) wrap = if top then true else wrap := by
  by_cases h : top <;> simp [wrapAfter, h]

section
variable {w : TraceWord} {s : State}

theorem writeWord_onChip (onChip : s.ifctl.ofc = false) (inRange : s.wrpAddr.toNat < 8 * s.params.tmemWords) :
    writeWord w s = .next { s with
      tmem := memWriteWord s.wrpAddr.toNat w s.tmem
      wrpAddr := if s.wrpAddr.toNat = 8 * (s.params.tmemWords - 1) then 0#32 else s.wrpAddr + 8#32
      wrpWrap := if s.wrpAddr.toNat = 8 * (s.params.tmemWords - 1) then true else s.wrpWrap } := by
  have isWord : inTraceMemory s.params s.wrpAddr = true := decide_eq_true inRange
  rw [writeWord, if_neg (by simp [onChip]), if_pos isWord, storeWord, wrapAfter_eq]
  rfl

theorem writeWord_queued (offChip : s.ifctl.ofc = true) (room : s.fifo.length < s.params.fifoWords) :
    writeWord w s = .next { s with fifo := s.fifo ++ [w] } := by
  have notFull : fifoFull s = false := decide_eq_false (by omega)
  rw [writeWord, if_pos offChip, queueWord, if_neg (by simp [notFull])]

theorem writeWord_overflow (offChip : s.ifctl.ofc = true) (noRoom : s.params.fifoWords ≤ s.fifo.length) :
    writeWord w s = .next (overflow s) := by
  have isFull : fifoFull s = true := decide_eq_true noRoom
  rw [writeWord, if_pos offChip, queueWord, if_pos isFull]

end

section
variable {m : List Bool} {s : State}

theorem emit_short (short : s.acc.length + m.length < 58) :
    emit m s = .next { s with acc := s.acc ++ m, firstStart := some (s.firstStart.getD s.acc.length) } := by
  rw [emit, if_pos short, accumulate, startPosition_eq]

theorem emit_full (full : 58 ≤ s.acc.length + m.length) :
    emit m s = writeWord (completedWord m s) { s with acc := (s.acc ++ m).drop 58, firstStart := none } := by
  rw [emit, if_neg (by omega), takeWord_accumulate]

theorem emit_stored (full : 58 ≤ s.acc.length + m.length) (onChip : s.ifctl.ofc = false)
    (inRange : s.wrpAddr.toNat < 8 * s.params.tmemWords) : emit m s = .next { s with
      acc := (s.acc ++ m).drop 58, firstStart := none
      tmem := memWriteWord s.wrpAddr.toNat (completedWord m s) s.tmem
      wrpAddr := if s.wrpAddr.toNat = 8 * (s.params.tmemWords - 1) then 0#32 else s.wrpAddr + 8#32
      wrpWrap := if s.wrpAddr.toNat = 8 * (s.params.tmemWords - 1) then true else s.wrpWrap } :=
  (emit_full full).trans (writeWord_onChip onChip inRange)

theorem emit_queued (full : 58 ≤ s.acc.length + m.length) (offChip : s.ifctl.ofc = true)
    (room : s.fifo.length < s.params.fifoWords) : emit m s = .next { s with
      acc := (s.acc ++ m).drop 58, firstStart := none, fifo := s.fifo ++ [completedWord m s] } :=
  (emit_full full).trans (writeWord_queued offChip room)

/-- An overflow takes the accumulator with it, so nothing of the message is left. -/
theorem emit_overflow (full : 58 ≤ s.acc.length + m.length) (offChip : s.ifctl.ofc = true)
    (noRoom : s.params.fifoWords ≤ s.fifo.length) : emit m s = .next (overflow s) :=
  (emit_full full).trans (writeWord_overflow offChip noRoom)

end

/-! ### The messages that join the accumulator or complete a word -/

theorem exec_of_traceOn {i : Instr} {s : State} (real : i ≠ .sRsv) (inactive : s.reader.active = false)
    (traceOn : inTraceOn s = true) : exec i s = emit (encode i) (beforeEmit i s) := by
  rw [exec_unit i s real inactive, if_pos traceOn]

theorem exec_of_isTraced {i : Instr} {s : State} (traced : isTraced i = true) (inactive : s.reader.active = false)
    (traceOn : inTraceOn s = true) : exec i s = emit (encode i) (noteTraced s) := by
  have real : i ≠ .sRsv := by rintro rfl; cases traced
  have before : beforeEmit i s = noteTraced s := by
    cases i with
    | nSeq | nBt | nJ8 | nJ16 | nFpc => rfl
    | nRes | sDcr | sUtm | sRsv | sBm | sFd | sFce | sRes => cases traced
  rw [exec_of_traceOn real inactive traceOn, before]

theorem exec_of_isEvent {i : Instr} {s : State} (event : isEvent i = true) (inactive : s.reader.active = false)
    (traceOn : inTraceOn s = true) : exec i s = emit (encode i) s := by
  have real : i ≠ .sRsv := by rintro rfl; cases event
  have before : beforeEmit i s = s := by
    cases i with
    | sDcr | sUtm | sBm | sFd | sFce => rfl
    | nSeq | nBt | nJ8 | nJ16 | nFpc | nRes | sRsv | sRes => cases event
  rw [exec_of_traceOn real inactive traceOn, before]

/-- Settles O16: the message notes the traced instruction, and a short emission accumulates. -/
theorem tracedMessageAccumulates : Obligations.TracedMessageAccumulates := fun _ s traced inactive traceOn short =>
  (exec_of_isTraced traced inactive traceOn).trans (emit_short (s := noteTraced s) short)

/-- Settles O17: the message notes the traced instruction, and a full emission on chip stores the word. -/
theorem tracedMessageStoresWord : Obligations.TracedMessageStoresWord :=
  fun _ s traced inactive traceOn full onChip inRange =>
    (exec_of_isTraced traced inactive traceOn).trans (emit_stored (s := noteTraced s) full onChip inRange)

/-- Settles O18: an event message is emitted from the state as it is, and a short emission accumulates. -/
theorem eventMessageAccumulates : Obligations.EventMessageAccumulates := fun _ _ event inactive traceOn short =>
  (exec_of_isEvent event inactive traceOn).trans (emit_short short)

/-- Settles O19: an event message is emitted from the state as it is, and a full emission on chip stores the word. -/
theorem eventMessageStoresWord : Obligations.EventMessageStoresWord := fun _ _ event inactive traceOn full onChip inRange =>
  (exec_of_isEvent event inactive traceOn).trans (emit_stored full onChip inRange)

/-- Settles O20: the four ones of a resumption message complete a word from 54 accumulated bits on. -/
theorem resumptionMessagesAccumulate : Obligations.ResumptionMessagesAccumulate := by
  intro s inactive traceOn
  have nRes : exec .nRes s = emit [true, true, true, true] (noteResumed s) := exec_of_traceOn nofun inactive traceOn
  have sRes : exec .sRes s = emit [true, true, true, true] (noteResumedSpecial s) := exec_of_traceOn nofun inactive traceOn
  constructor
  case left =>
    intro below
    have short : s.acc.length + 4 < 58 := by omega
    exact ⟨nRes.trans (emit_short (s := noteResumed s) short), sRes.trans (emit_short (s := noteResumedSpecial s) short)⟩
  case right =>
    intro atLeast onChip inRange
    have full : 58 ≤ s.acc.length + 4 := by omega
    exact ⟨nRes.trans (emit_stored (s := noteResumed s) full onChip inRange),
      sRes.trans (emit_stored (s := noteResumedSpecial s) full onChip inRange)⟩

/-- Settles O21: off chip a full emission with room in the queue appends the word. -/
theorem fullWordIsQueued : Obligations.FullWordIsQueued := by
  intro i s real inactive traceOn full offChip room
  rw [exec_of_traceOn real inactive traceOn, emit_queued (by simpa using full) (by simpa using offChip) (by simpa using room)]
  simp [completedWord]

/-- Settles O22: off chip a full emission without room is an overflow, which keeps a part of the queue. -/
theorem overflowThrowsTraceAway : Obligations.OverflowThrowsTraceAway := by
  intro i s real inactive traceOn full offChip noRoom
  refine ⟨overflow (beforeEmit i s), ?_, rfl, rfl, rfl, rfl, ?_, ?_⟩
  · rw [exec_of_traceOn real inactive traceOn, emit_overflow (by simpa using full) (by simpa using offChip) (by simpa using noRoom)]
  · simpa using dropWords_sublist _ 0 (beforeEmit i s).fifo
  · simp

/-- Settles O23: S.RSV has no arm on the unit's side, and each other message is sent only while trace is on. -/
theorem reservedRefusedOthersIgnored : Obligations.ReservedRefusedOthersIgnored := by
  intro s inactive
  constructor
  case left => simp [exec, execSRsv, inactive]
  case right =>
    intro traceOff i real
    rw [exec_unit i s real inactive, if_neg (by simp [traceOff])]

end Sys2Proof.Machine
end

section
/-! The frame of the messages on the unit's side, and the trace memory they write (R62, R207, R210). -/

namespace Sys2Proof.Machine

/-! ### What an emission can do -/

/-- An emission accumulates, or completes a word, which is lost to an overflow, queued, or stored. -/
theorem emit_cases {m : List Bool} {s t : State} (h : emit m s = .next t) :
    (completesWord m s = false ∧ t = accumulate m s) ∨
    (completesWord m s = true ∧ s.ifctl.ofc = true ∧ fifoFull s = true ∧ t = overflow s) ∨
    (completesWord m s = true ∧ s.ifctl.ofc = true ∧ fifoFull s = false ∧
      t = { s with acc := (s.acc ++ m).drop 58, firstStart := none, fifo := s.fifo ++ [completedWord m s] }) ∨
    (completesWord m s = true ∧ s.ifctl.ofc = false ∧ inTraceMemory s.params s.wrpAddr = true ∧
      t = storeWord (completedWord m s) { s with acc := (s.acc ++ m).drop 58, firstStart := none }) := by
  rcases emit_next h with ⟨short, rfl⟩ | ⟨full, written⟩
  · exact .inl ⟨decide_eq_false (by omega), rfl⟩
  · have completes : completesWord m s = true := decide_eq_true full
    rw [takeWord_accumulate] at written
    rcases writeWord_next written with ⟨offChip, rfl⟩ | ⟨onChip, inRange, rfl⟩
    · rcases queueWord_cases (completedWord m s) { s with acc := (s.acc ++ m).drop 58, firstStart := none }
        with ⟨noRoom, queued⟩ | ⟨room, queued⟩
      · exact .inr (.inl ⟨completes, offChip, noRoom, queued⟩)
      · exact .inr (.inr (.inl ⟨completes, offChip, room, queued⟩))
    · exact .inr (.inr (.inr ⟨completes, onChip, inRange, rfl⟩))

/-- An emission writes the accumulator, the queue, trace memory with its pointer, and at an overflow the marks. -/
theorem emit_frame {m : List Bool} {s t : State} (h : emit m s = .next t) : t = { s with
    acc := t.acc, firstStart := t.firstStart, tmem := t.tmem, wrpAddr := t.wrpAddr, wrpWrap := t.wrpWrap, fifo := t.fifo
    discont := t.discont, needFullPc := t.needFullPc, drawIndex := t.drawIndex } := by
  rcases emit_cases h with ⟨-, rfl⟩ | ⟨-, -, -, rfl⟩ | ⟨-, -, -, rfl⟩ | ⟨-, -, -, rfl⟩ <;> rfl

/-- On chip an emission queues nothing and cannot overflow. -/
theorem emit_onChip {m : List Bool} {s t : State} (h : emit m s = .next t) (onChip : s.ifctl.ofc = false) :
    t.fifo = s.fifo ∧ t.discont = s.discont := by
  rcases emit_cases h with ⟨-, rfl⟩ | ⟨-, offChip, -⟩ | ⟨-, offChip, -⟩ | ⟨-, -, -, rfl⟩
  · exact ⟨rfl, rfl⟩
  · simp [onChip] at offChip
  · simp [onChip] at offChip
  · exact ⟨rfl, rfl⟩

theorem readByte_congr {s t : State} (tmem : t.tmem = s.tmem) (resets : t.resetCount = s.resetCount) (a : Nat) :
    readByte t a = readByte s a := by
  rw [readByte, readByte, tmem, resets]

/-- An emission that stores no word leaves trace memory and its pointer alone. -/
theorem emit_storesNothing {m : List Bool} {s t : State} (h : emit m s = .next t) (none : emitStoresAt m s = none) :
    t.wrpAddr = s.wrpAddr ∧ t.wrpWrap = s.wrpWrap ∧ ∀ x, readByte t x = readByte s x := by
  rcases emit_cases h with ⟨-, rfl⟩ | ⟨-, -, -, rfl⟩ | ⟨-, -, -, rfl⟩ | ⟨completes, onChip, -⟩
  · exact ⟨rfl, rfl, readByte_congr rfl rfl⟩
  · exact ⟨rfl, rfl, readByte_congr rfl rfl⟩
  · exact ⟨rfl, rfl, readByte_congr rfl rfl⟩
  · simp [emitStoresAt, completes, onChip] at none

/-- An emission that stores a word leaves every byte outside its eight alone. -/
theorem emit_storesAt {m : List Bool} {s t : State} {a : Nat} (h : emit m s = .next t) (stores : emitStoresAt m s = some a)
    {x : Nat} (outside : x < a ∨ a + 8 ≤ x) : readByte t x = readByte s x := by
  rcases emit_cases h with ⟨-, rfl⟩ | ⟨-, -, -, rfl⟩ | ⟨-, -, -, rfl⟩ | ⟨completes, onChip, -, rfl⟩
  · exact readByte_congr rfl rfl x
  · exact readByte_congr rfl rfl x
  · exact readByte_congr rfl rfl x
  · have at_pointer : s.wrpAddr.toNat = a := by simpa [emitStoresAt, completes, onChip] using stores
    rw [readByte_storeWord, if_neg (by simp only; omega)]
    exact readByte_congr rfl rfl x

/-! ### The frame of a message -/

theorem beforeEmit_dcyc {i : Instr} (s : State) (other : i ≠ .sRes) : (beforeEmit i s).dcyc = s.dcyc := by
  cases i with
  | sRes => exact absurd rfl other
  | nSeq | nBt | nJ8 | nJ16 | nFpc | nRes | sDcr | sUtm | sRsv | sBm | sFd | sFce => rfl

theorem beforeEmit_lastTraced {i : Instr} (s : State) (other : isTraced i = false) :
    (beforeEmit i s).lastPc = s.lastPc ∧ (beforeEmit i s).lastNcc = s.lastNcc := by
  cases i with
  | nSeq | nBt | nJ8 | nJ16 | nFpc => cases other
  | nRes | sDcr | sUtm | sRsv | sBm | sFd | sFce | sRes => exact ⟨rfl, rfl⟩

theorem beforeEmit_discont {i : Instr} (s : State) (other : isResume i = false) : (beforeEmit i s).discont = s.discont := by
  cases i with
  | nRes | sRes => cases other
  | nSeq | nBt | nJ8 | nJ16 | nFpc | sDcr | sUtm | sRsv | sBm | sFd | sFce => rfl

/-- A message on the unit's side writes what its rule notes and what its emission writes. -/
theorem exec_unit_frame {i : Instr} {s t : State} (inactive : s.reader.active = false) (h : exec i s = .next t) : t = { s with
    lastPc := t.lastPc, lastNcc := t.lastNcc, dcyc := t.dcyc
    acc := t.acc, firstStart := t.firstStart, tmem := t.tmem, wrpAddr := t.wrpAddr, wrpWrap := t.wrpWrap, fifo := t.fifo
    discont := t.discont, needFullPc := t.needFullPc, drawIndex := t.drawIndex } := by
  rcases exec_unit_next inactive h with ⟨-, rfl⟩ | ⟨-, emitted⟩
  · rfl
  · rw [emit_frame emitted, beforeEmit_eq]

/-- Settles O24: while trace is off nothing changes; else the emission changes what its rules name. -/
theorem unitMessageFrame : Obligations.UnitMessageFrame := by
  intro i s t inactive run
  have frame := exec_unit_frame inactive run
  refine ⟨by and_intros <;> rw [frame], ?_⟩
  rcases exec_unit_next inactive run with ⟨traceOff, rfl⟩ | ⟨traceOn, emitted⟩
  case inl => simp
  case inr =>
    have written := emit_frame emitted
    have stores : storesAt i s = emitStoresAt (encode i) (beforeEmit i s) := by
      simp [storesAt, traceOn, emitStoresAt, completesWord]
    have before : ∀ x, readByte (beforeEmit i s) x = readByte s x :=
      readByte_congr (beforeEmit_tmem i s) (by rw [beforeEmit_eq])
    refine ⟨fun other => ?cycles, fun other => ?lastTraced, fun onChip => ⟨?queue, fun other => ?discont⟩,
      fun nothing => ?noStore, fun a atAddress x outside => ?store⟩
    case cycles => rw [written]; exact beforeEmit_dcyc s other
    case lastTraced => rw [written]; exact beforeEmit_lastTraced s other
    case queue => simpa using (emit_onChip emitted (by simpa using onChip)).1
    case discont => exact (emit_onChip emitted (by simpa using onChip)).2.trans (beforeEmit_discont s other)
    case noStore => simpa [before] using emit_storesNothing emitted (stores ▸ nothing)
    case store => rw [emit_storesAt emitted (stores ▸ atAddress) outside, before]

/-! ### The word in trace memory -/

theorem getLsbD_wordByte (w : TraceWord) {k j : Nat} (above : 8 * j ≤ k) (below : k < 8 * j + 8) :
    (wordByte w j).getLsbD (k - 8 * j) = w.getLsbD k := by
  rw [wordByte, BitVec.getLsbD_extractLsb', decide_eq_true (by omega), Bool.true_and, Nat.add_sub_cancel' above]

/-- The eight bytes of a trace word, one above the other, are the word (R62, log 6). -/
theorem wordByte_append (w : TraceWord) : wordByte w 7 ++ wordByte w 6 ++ wordByte w 5 ++ wordByte w 4 ++ wordByte w 3 ++
    wordByte w 2 ++ wordByte w 1 ++ wordByte w 0 = w := by
  refine BitVec.eq_of_getLsbD_eq fun k hk => ?_
  simp only [BitVec.getLsbD_append, Nat.sub_sub]
  split_ifs <;> exact getLsbD_wordByte w (by omega) (by omega)

/-- Settles O25: each byte read is the one written there, and the eight make the word. -/
theorem storedWordReadsBack : Obligations.StoredWordReadsBack := by
  intro s w
  have stored : ∀ k, k < 8 → readByte (storeWord w s) (s.wrpAddr.toNat + k) = wordByte w k := by
    intro k hk
    rw [readByte_storeWord, if_pos (by omega), Nat.add_sub_cancel_left]
  refine ⟨?_, fun x outside => ?_⟩
  · have lowest : readByte (storeWord w s) s.wrpAddr.toNat = wordByte w 0 := stored 0 (by decide)
    simp (disch := decide) only [readWord, stored, lowest, wordByte_append]
  · rw [readByte_storeWord, if_neg (by omega)]

/-! ### With overflow inhibited -/

/-- What the bus hands over: the message, or the resumption message before it, and the state with at most the bus changed. -/
theorem busNext_some {s s' : State} {i : Instr} (h : busNext s = some (i, s')) :
    ∃ j rest, s.bus = j :: rest ∧ busHead j rest s = (i, s') ∧ sendHeld i s = false := by
  unfold busNext at h
  split at h
  · cases h
  · rename_i j rest bus
    split at h
    · cases h
    · rename_i free
      simp only [Option.some.injEq] at h
      exact ⟨j, rest, bus, h, by simpa [h] using free⟩

theorem busHead_frame {s s' : State} {i j : Instr} {rest : List Instr} (h : busHead j rest s = (i, s')) :
    s' = { s with bus := s'.bus } := by
  unfold busHead at h
  split at h <;> cases h <;> rfl

/-- The rules of the resumption messages clear the mark of a discontinuity; no rule sets it. -/
theorem discont_of_beforeEmit {i : Instr} {s : State} (h : (beforeEmit i s).discont = true) : s.discont = true := by
  cases i with
  | nRes | sRes => cases h
  | nSeq | nBt | nJ8 | nJ16 | nFpc | sDcr | sUtm | sRsv | sBm | sFd | sFce => exact h

/-- Settles O54: a message that would overflow is held, so it is none that the bus hands over. -/
theorem inhibitedOverflowLosesNothing : Obligations.InhibitedOverflowLosesNothing := by
  intro s s' t i offChip inhibited inactive next run
  obtain ⟨j, rest, -, head, notHeld⟩ := busNext_some next
  obtain ⟨bus, rfl⟩ : ∃ bus, s' = { s with bus := bus } := ⟨_, busHead_frame head⟩
  rcases exec_unit_next (s := { s with bus := bus }) inactive run with ⟨-, rfl⟩ | ⟨traceOn, emitted⟩
  case inl => exact ⟨.inl rfl, id⟩
  case inr =>
    have traceOn' : inTraceOn s = true := traceOn
    rcases emit_cases emitted with ⟨-, rfl⟩ | ⟨completes, -, noRoom, -⟩ | ⟨-, -, -, rfl⟩ | ⟨-, onChip, -⟩
    · exact ⟨.inl (by simp), discont_of_beforeEmit (s := { s with bus := bus })⟩
    · have completes' : completesWord (encode i) s = true := by simpa [completesWord] using completes
      have noRoom' : fifoFull s = true := by simpa [fifoFull] using noRoom
      simp [sendHeld, offChip, inhibited, noRoom', traceOn', completes'] at notHeld
    · exact ⟨.inr ⟨_, by simp; rfl⟩, discont_of_beforeEmit (s := { s with bus := bus })⟩
    · simp [offChip] at onChip

end Sys2Proof.Machine
end

section
/-! The off-chip stream: what is sent is what the queued words and the accumulator hold (R71, R200, R202, R208). -/

namespace Sys2Proof.Machine

theorem encode_length (i : Instr) : 1 ≤ (encode i).length ∧ (encode i).length ≤ 57 := by
  cases i with
  | nSeq => exact Laws.EncodeLength.nSeq
  | nBt => exact Laws.EncodeLength.nBt
  | nJ8 d => exact Laws.EncodeLength.nJ8 d
  | nJ16 d => exact Laws.EncodeLength.nJ16 d
  | nFpc pc ncc => exact Laws.EncodeLength.nFpc pc ncc
  | nRes => exact Laws.EncodeLength.nRes
  | sDcr => exact Laws.EncodeLength.sDcr
  | sUtm data utm2 dc => exact Laws.EncodeLength.sUtm data utm2 dc
  | sRsv => exact Laws.EncodeLength.sRsv
  | sBm id ib pc ncc dc => exact Laws.EncodeLength.sBm id ib pc ncc dc
  | sFd id load full addr field dc => exact Laws.EncodeLength.sFd id load full addr field dc
  | sFce fc ex r pc ncc dc => exact Laws.EncodeLength.sFce fc ex r pc ncc dc
  | sRes => exact Laws.EncodeLength.sRes

theorem encode_ne_nil (i : Instr) : encode i ≠ [] :=
  List.ne_nil_of_length_pos (encode_length i).1

/-! ### Joined words -/

theorem joinData_append (ws vs : List TraceWord) : joinData (ws ++ vs) = joinData ws ++ joinData vs := by
  induction ws with
  | nil => rfl
  | cons w ws ih => simp [joinData, ih]

theorem joinData_singleton (w : TraceWord) : joinData [w] = wordData w := by
  simp [joinData]

@[simp] theorem length_wordData (w : TraceWord) : (wordData w).length = 58 :=
  length_fieldBits _

/-! ### One message sent off chip -/

/-- The unit sends off chip: no reader at work, trace on, OfC set. -/
structure Sending (s : State) : Prop where
  inactive : s.reader.active = false
  traceOn : inTraceOn s = true
  offChip : s.ifctl.ofc = true

/-- The bits in the queue and the accumulator. -/
def heldBits (s : State) : Nat :=
  58 * s.fifo.length + s.acc.length

/-- Sending these bits off chip accumulates them, or completes one word, which is queued. -/
def SentBits (m : List Bool) (s t : State) : Prop :=
  (s.acc.length + m.length < 58 ∧ t.fifo = s.fifo ∧ t.acc = s.acc ++ m ∧ startPosition t = startPosition s) ∨
    (58 ≤ s.acc.length + m.length ∧ t.fifo = s.fifo ++ [packWord ((s.acc ++ m).take 58) (encTag (startPosition s))] ∧
      t.acc = (s.acc ++ m).drop 58 ∧ startPosition t = t.acc.length)

/-- With room for the word it may complete, a message is sent, and the unit goes on sending. -/
theorem exec_sending {i : Instr} {s : State} (real : i ≠ .sRsv) (sending : Sending s)
    (room : 58 ≤ s.acc.length + (encode i).length → s.fifo.length < s.params.fifoWords) :
    ∃ t, exec i s = .next t ∧ Sending t ∧ t.params = s.params ∧ SentBits (encode i) s t := by
  obtain ⟨inactive, traceOn, offChip⟩ := sending
  have inactive' : (beforeEmit i s).reader.active = false := by simpa using inactive
  have traceOn' : inTraceOn (beforeEmit i s) = true := by simpa [inTraceOn] using traceOn
  have offChip' : (beforeEmit i s).ifctl.ofc = true := by simpa using offChip
  rw [exec_of_traceOn real inactive traceOn]
  by_cases short : s.acc.length + (encode i).length < 58
  case pos =>
    exact ⟨_, emit_short (by simpa using short), ⟨inactive', traceOn', offChip'⟩, beforeEmit_params i s,
      .inl ⟨short, beforeEmit_fifo i s, by simp, by simp [startPosition_eq]⟩⟩
  case neg =>
    have full : 58 ≤ s.acc.length + (encode i).length := by omega
    exact ⟨_, emit_queued (by simpa using full) offChip' (by simpa using room full), ⟨inactive', traceOn', offChip'⟩,
      beforeEmit_params i s, .inr ⟨full, by simp [completedWord, startPosition_eq], by simp, rfl⟩⟩

section
variable {m : List Bool} {s t : State} (sent : SentBits m s t)
include sent

theorem SentBits.heldBits_eq : heldBits t = heldBits s + m.length := by
  rcases sent with ⟨short, fifo, acc, -⟩ | ⟨full, fifo, acc, -⟩ <;> simp [heldBits, fifo, acc] <;> omega

theorem SentBits.acc_lt (below : s.acc.length < 58) (oneMessage : m.length ≤ 57) : t.acc.length < 58 := by
  rcases sent with ⟨short, -, acc, -⟩ | ⟨full, -, acc, -⟩ <;> simp [acc] <;> omega

/-- Bits sent stand behind the bits held before, none lost and none moved. -/
theorem SentBits.stream : joinData t.fifo ++ t.acc = joinData s.fifo ++ s.acc ++ m := by
  rcases sent with ⟨-, fifo, acc, -⟩ | ⟨full, fifo, acc, -⟩
  · rw [fifo, acc, List.append_assoc]
  · have isWord : ((s.acc ++ m).take 58).length = 58 := by simp; omega
    rw [fifo, acc, joinData_append, joinData_singleton, wordData_packWord isWord, List.append_assoc, List.take_append_drop,
      List.append_assoc]

end

/-! ### All messages sent off chip -/

/-- What holds before the messages and is kept as each is sent holds after all of them, and they are sent where their words find room. -/
theorem sendAll_sending (P : List Instr → State → Prop)
    (keep : ∀ done i s t, P done s → s.acc.length < 58 → SentBits (encode i) s t → P (done ++ [i]) t) :
    ∀ (ms done : List Instr) (s : State), (∀ i ∈ ms, i ≠ .sRsv) → Sending s → s.acc.length < 58 →
      heldBits s + (ms.flatMap encode).length < 58 * (s.params.fifoWords + 1) → P done s →
      ∃ t, sendAll ms s = .next t ∧ P (done ++ ms) t ∧ Sending t ∧ t.params = s.params ∧ t.acc.length < 58 ∧
        heldBits t = heldBits s + (ms.flatMap encode).length := by
  intro ms
  induction ms with
  | nil => exact fun done s _ sending below _ holds => ⟨s, rfl, by simpa using holds, sending, rfl, below, by simp⟩
  | cons i ms ih =>
    intro done s real sending below room holds
    simp only [List.flatMap_cons, List.length_append] at room
    obtain ⟨s', run, sending', params, sent⟩ := exec_sending (real i (List.mem_cons_self ..)) sending fun full => by
      simp only [heldBits] at room; omega
    have held := sent.heldBits_eq
    obtain ⟨t, runs, holds', sending'', params', below', held'⟩ := ih (done ++ [i]) s'
      (fun j hj => real j (List.mem_cons_of_mem _ hj)) sending' (sent.acc_lt below (encode_length i).2)
      (by rw [params]; omega) (keep done i s s' holds below sent)
    refine ⟨t, ?_, by simpa using holds', sending'', params'.trans params, below', ?_⟩
    · rw [sendAll, run, andThen, runs]
    · simp only [List.flatMap_cons, List.length_append]
      omega

/-- The bits held are those of `s` and the messages sent since. -/
def HoldsStream (s : State) (done : List Instr) (t : State) : Prop :=
  joinData t.fifo ++ t.acc = joinData s.fifo ++ s.acc ++ done.flatMap encode

theorem HoldsStream.send {s₀ s t : State} {done : List Instr} {i : Instr} (holds : HoldsStream s₀ done s)
    (sent : SentBits (encode i) s t) : HoldsStream s₀ (done ++ [i]) t := by
  rw [HoldsStream, sent.stream, holds, List.flatMap_append, List.flatMap_singleton, List.append_assoc]

/-- Settles O56, by induction on the messages: each stands behind the bits held before it. -/
theorem sentMessagesAreTheStream : Obligations.SentMessagesAreTheStream := by
  intro ms s t real inactive traceOn offChip below room run
  obtain ⟨t', run', holds, -⟩ := sendAll_sending (HoldsStream s) (fun _ _ _ _ holds _ sent => holds.send sent) ms [] s real
    ⟨inactive, traceOn, offChip⟩ below (by simp only [heldBits]; omega) (by simp [HoldsStream])
  cases run.symm.trans run'
  exact holds

end Sys2Proof.Machine
end

section
/-! The way back: a reader of the words of a stopped off-chip run decodes the messages that were sent (R110, R114, R116, R205, R216). -/

namespace Sys2Proof.Machine

/-! ### Message boundaries and tags -/

/-- The bits end where one of the messages begins, or behind the last of them. -/
def Boundary (ms : List Instr) (bits : List Bool) : Prop :=
  ∃ front, front <+: ms ∧ bits = front.flatMap encode

theorem Boundary.append {ms : List Instr} {bits : List Bool} (h : Boundary ms bits) (more : List Instr) :
    Boundary (ms ++ more) bits := by
  obtain ⟨front, isPrefix, bits⟩ := h
  exact ⟨front, isPrefix.trans (List.prefix_append ..), bits⟩

/-- Behind the first message the boundaries are those of the messages after it. -/
theorem Boundary.behind {m : Instr} {ms : List Instr} {bits : List Bool} (h : Boundary (m :: ms) (encode m ++ bits)) :
    Boundary ms bits := by
  obtain ⟨front, isPrefix, eq⟩ := h
  cases front with
  | nil => simp [encode_ne_nil] at eq
  | cons x front =>
    obtain ⟨rfl, later⟩ := List.cons_prefix_cons.mp isPrefix
    exact ⟨front, later, by simpa using eq⟩

/-- Each word has a tag that names a start, and names bit 0 only where a message begins there; `bits` are those before the words. -/
def Tagged (ms : List Instr) (bits : List Bool) (words : List TraceWord) : Prop :=
  match words with
  | [] => True
  | w :: rest => (∃ start, decTag (wordTag w) = some start ∧ (start = 0 → Boundary ms bits)) ∧ Tagged ms (bits ++ wordData w) rest

theorem Tagged.append {ms : List Instr} {bits : List Bool} {words : List TraceWord} (h : Tagged ms bits words) (more : List Instr) :
    Tagged (ms ++ more) bits words := by
  induction words generalizing bits with
  | nil => trivial
  | cons w rest ih =>
    obtain ⟨⟨start, tag, atZero⟩, later⟩ := h
    exact ⟨⟨start, tag, fun h => (atZero h).append more⟩, ih later⟩

theorem Tagged.behind {m : Instr} {ms : List Instr} {bits : List Bool} {words : List TraceWord}
    (h : Tagged (m :: ms) (encode m ++ bits) words) : Tagged ms bits words := by
  induction words generalizing bits with
  | nil => trivial
  | cons w rest ih =>
    obtain ⟨⟨start, tag, atZero⟩, later⟩ := h
    exact ⟨⟨start, tag, fun h => (atZero h).behind⟩, ih (by simpa using later)⟩

theorem Tagged.concat {ms : List Instr} {bits : List Bool} {words : List TraceWord} {w : TraceWord} {start : Nat}
    (h : Tagged ms bits words) (tag : decTag (wordTag w) = some start) (atZero : start = 0 → Boundary ms (bits ++ joinData words)) :
    Tagged ms bits (words ++ [w]) := by
  induction words generalizing bits with
  | nil => exact ⟨⟨start, tag, by simpa [joinData] using atZero⟩, trivial⟩
  | cons v rest ih =>
    obtain ⟨first, later⟩ := h
    exact ⟨first, ih later (by simpa [joinData] using atZero)⟩

/-! ### The words the unit makes -/

/-- What the unit keeps while it sends from an empty stream: the bits sent, a tag on every word, and the start for the next tag. -/
structure SendsTagged (done : List Instr) (s : State) : Prop where
  stream : joinData s.fifo ++ s.acc = done.flatMap encode
  tagged : Tagged done [] s.fifo
  /-- The first word begins with the first message. -/
  first : ∀ w rest, s.fifo = w :: rest → decTag (wordTag w) = some 0
  unbegun : s.fifo = [] → startPosition s = 0
  start : startPosition s ≤ 56
  atZero : startPosition s = 0 → Boundary done (joinData s.fifo)

/-- A word of the accumulator's next bits under the tag of the first message beginning there keeps the words tagged. -/
theorem SendsTagged.queued {done : List Instr} {s : State} (h : SendsTagged done s) {data : List Bool} :
    Tagged done [] (s.fifo ++ [packWord data (encTag (startPosition s))]) ∧
      ∀ w rest, s.fifo ++ [packWord data (encTag (startPosition s))] = w :: rest → decTag (wordTag w) = some 0 := by
  have tag : decTag (wordTag (packWord data (encTag (startPosition s)))) = some (startPosition s) := by
    rw [wordTag_packWord, decTag_encTag h.start]
  refine ⟨h.tagged.concat tag (by simpa using h.atZero), fun w rest eq => ?_⟩
  cases fifo : s.fifo with
  | nil =>
    simp only [fifo, List.nil_append, List.cons.injEq] at eq
    rw [← eq.1, tag, h.unbegun fifo]
  | cons v vs =>
    simp only [fifo, List.cons_append, List.cons.injEq] at eq
    rw [← eq.1, h.first v vs fifo]

theorem SendsTagged.send {done : List Instr} {i : Instr} {s t : State} (h : SendsTagged done s) (below : s.acc.length < 58)
    (sent : SentBits (encode i) s t) : SendsTagged (done ++ [i]) t := by
  have stream : joinData t.fifo ++ t.acc = (done ++ [i]).flatMap encode := by
    rw [sent.stream, h.stream, List.flatMap_append, List.flatMap_singleton]
  rcases sent with ⟨-, fifo, -, start⟩ | ⟨full, fifo, acc, start⟩
  case inl =>
    exact { stream
            tagged := fifo ▸ h.tagged.append [i]
            first := fifo ▸ h.first
            unbegun := by rw [fifo, start]; exact h.unbegun
            start := start ▸ h.start
            atZero := by rw [fifo, start]; exact fun zero => (h.atZero zero).append [i] }
  case inr =>
    have short := (encode_length i).2
    exact { stream
            tagged := fifo ▸ h.queued.1.append [i]
            first := fifo ▸ h.queued.2
            unbegun := by simp [fifo]
            start := by simp only [start, acc, List.length_drop, List.length_append]; omega
            atZero := fun zero => ⟨done ++ [i], List.prefix_rfl, by
              rw [start, List.length_eq_zero_iff] at zero
              rw [← stream, zero, List.append_nil]⟩ }

/-! ### The flush -/

/-- What the words queued at the stop hold: the messages, and behind them at most a word's rest of fill (R205, R116). -/
theorem flush_sending {done : List Instr} {s : State} (h : SendsTagged done s) (below : s.acc.length < 58) (offChip : s.ifctl.ofc = true)
    (room : s.fifo.length < s.params.fifoWords) :
    ∃ u fill, flush s = .next u ∧ fill < 58 ∧ joinData u.fifo = done.flatMap encode ++ List.replicate fill true ∧
      Tagged done [] u.fifo ∧ ∀ w rest, u.fifo = w :: rest → decTag (wordTag w) = some 0 := by
  have stream := h.stream
  by_cases empty : s.acc = []
  case pos =>
    refine ⟨clearAcc s, 0, by simp [flush, empty], by decide, ?_, h.tagged, h.first⟩
    simpa [empty] using stream
  case neg =>
    have written : flush s = .next { clearAcc s with fifo := s.fifo ++ [flushWord s] } := by
      rw [flush, if_neg (by simpa using empty), writeWord_queued (s := clearAcc s) offChip room]
      rfl
    have isWord : (s.acc ++ List.replicate (58 - s.acc.length) true).length = 58 := by simp; omega
    have nonempty : s.acc.length ≠ 0 := by simpa using empty
    refine ⟨_, 58 - s.acc.length, written, by omega, ?_, h.queued.1, h.queued.2⟩
    rw [joinData_append, joinData_singleton, flushWord, wordData_packWord isWord, ← List.append_assoc, stream]

/-! ### The reader -/

/-- A message that is no resumption message has a zero among its bits, so fill cannot be taken for it (U5). -/
theorem false_mem_encode {i : Instr} (other : isResume i = false) : false ∈ encode i := by
  cases i with
  | nRes | sRes => cases other
  | nSeq | nBt | nJ8 | nJ16 | nFpc | sDcr | sUtm | sRsv | sBm | sFd | sFce => simp [encode]

/-- Messages whose last is no resumption message are no fill. -/
theorem not_all_ones_of_last {ms : List Instr} (nonempty : ms ≠ []) (last : ∀ i, ms.getLast? = some i → isResume i = false) :
    false ∈ ms.flatMap encode :=
  List.mem_flatMap.mpr ⟨ms.getLast nonempty, List.getLast_mem nonempty,
    false_mem_encode (last _ (List.getLast?_eq_some_getLast nonempty))⟩

/-- A reader at a boundary in the stream: before it are the bits it has not decoded and the words it has not taken, which hold the messages
still to come and fill. -/
structure ReadsStream (est cyc : Bool) (ms : List Instr) (words : List TraceWord) (r : Reader) : Prop where
  active : r.active = true
  aligned : r.aligned = true
  mode : r.est = est ∧ r.cyc = cyc
  captured : r.words = wholeCapture words
  fill : ∃ n, n < 58 ∧ r.bits ++ joinData words = ms.flatMap encode ++ List.replicate n true
  tagged : Tagged ms r.bits words

section
variable {est cyc : Bool} {ms : List Instr} {words : List TraceWord} {r : Reader} (reads : ReadsStream est cyc ms words r)
include reads

/-- With no message left there is only fill, and all of it in the bits taken. -/
theorem ReadsStream.atFill_of_nil (done : ms = []) : atFill r = true := by
  obtain ⟨n, short, stream⟩ := reads.fill
  subst done
  simp only [List.flatMap_nil, List.nil_append] at stream
  have length : r.bits.length + (joinData words).length = n := by simpa using congrArg List.length stream
  have noWords : words = [] := by
    cases words with
    | nil => rfl
    | cons w rest =>
      simp only [joinData, List.length_append, length_wordData] at length
      omega
  subst noWords
  have bits : r.bits = List.replicate n true := by simpa [joinData] using stream
  simp [atFill, reads.aligned, reads.captured, wholeCapture, bits]
  omega

/-- With a message left there is more than fill. -/
theorem ReadsStream.atFill_of_ne_nil (left : ms ≠ []) (last : ∀ i, ms.getLast? = some i → isResume i = false) :
    atFill r = false := by
  by_contra fill
  have fill : r.words = [] ∧ r.bits.all id = true := by
    simp only [atFill, Bool.and_eq_true, Bool.not_eq_false, List.isEmpty_iff] at fill
    exact ⟨fill.1.1.2, fill.2⟩
  obtain ⟨n, -, stream⟩ := reads.fill
  have noWords : words = [] := by simpa [reads.captured, wholeCapture] using fill.1
  have zero : false ∈ r.bits := by
    rw [noWords, joinData, List.append_nil] at stream
    rw [stream]
    exact List.mem_append_left _ (not_all_ones_of_last left last)
  simpa using List.all_eq_true.mp fill.2 false zero

end

theorem ReadsStream.decode_eq {est cyc : Bool} {m : Instr} {ms : List Instr} {words : List TraceWord} {r : Reader}
    (reads : ReadsStream est cyc (m :: ms) words r) (fits : m.fits est cyc = true) {i : Instr} {rest : List Bool}
    (message : decode est cyc r.bits = .message i rest) : i = m ∧ r.bits = encode m ++ rest := by
  obtain ⟨n, -, stream⟩ := reads.fill
  obtain ⟨fits', bits⟩ := encodeInvertsDecode.1 est cyc r.bits rest i message
  have left : decode est cyc (r.bits ++ joinData words) = .message i (rest ++ joinData words) := by
    rw [← bits, List.append_assoc]
    exact decodeInvertsEncode est cyc i _ fits'
  have right : decode est cyc (r.bits ++ joinData words) = .message m (ms.flatMap encode ++ List.replicate n true) := by
    rw [stream, List.flatMap_cons, List.append_assoc]
    exact decodeInvertsEncode est cyc m _ fits
  rw [left] at right
  simp only [Decoded.message.injEq] at right
  exact ⟨right.1, right.1 ▸ bits.symm⟩

/-- Where the bits end inside a message, a word that begins with a message finds no bits before it. -/
theorem Boundary.eq_nil_of_truncated {est cyc : Bool} {ms : List Instr} {bits : List Bool} (boundary : Boundary ms bits)
    (fit : ∀ i ∈ ms, i.fits est cyc = true) (truncated : decode est cyc bits = .truncated) : bits = [] := by
  obtain ⟨front, isPrefix, bits⟩ := boundary
  cases front with
  | nil => exact bits
  | cons m front =>
    have fits : m.fits est cyc = true := fit m (isPrefix.subset (List.mem_cons_self ..))
    rw [bits, List.flatMap_cons, decodeInvertsEncode est cyc m _ fits] at truncated
    cases truncated

/-- Taking a word, the reader goes on in the stream. -/
theorem ReadsStream.take {est cyc : Bool} {ms : List Instr} {w : TraceWord} {rest : List TraceWord} {r : Reader}
    (reads : ReadsStream est cyc ms (w :: rest) r) (fit : ∀ i ∈ ms, i.fits est cyc = true)
    (truncated : decode est cyc r.bits = .truncated) : ReadsStream est cyc ms rest (advanceReader r) := by
  obtain ⟨⟨start, tag, atZero⟩, tagged⟩ := reads.tagged
  obtain ⟨n, short, stream⟩ := reads.fill
  have joins : start ≠ 0 ∨ r.bits = [] := by
    by_cases zero : start = 0
    · exact .inr ((atZero zero).eq_nil_of_truncated fit truncated)
    · exact .inl zero
  have moved : advanceReader r = { r with words := wholeCapture rest, bits := r.bits ++ wordData w } := by
    rw [advanceReader, reads.captured]
    exact takeWordBits_of_joined tag reads.aligned joins
  rw [moved]
  exact { active := reads.active, aligned := reads.aligned, mode := reads.mode, captured := rfl, tagged
          fill := ⟨n, short, by rw [List.append_assoc]; exact stream⟩ }

/-- Behind a message decoded, the reader goes on in the stream. -/
theorem ReadsStream.decoded {est cyc : Bool} {m : Instr} {ms : List Instr} {words : List TraceWord} {r r' : Reader}
    (reads : ReadsStream est cyc (m :: ms) words r) {rest : List Bool} (bits : r.bits = encode m ++ rest)
    (keeps : KeepsReading { r with bits := rest } r') (keepsBits : KeepsBits { r with bits := rest } r') :
    ReadsStream est cyc ms words r' := by
  obtain ⟨active, est', cyc', words'⟩ := keeps
  obtain ⟨rest', aligned⟩ := keepsBits
  obtain ⟨n, short, stream⟩ := reads.fill
  refine { active := active.trans reads.active, aligned := aligned.trans reads.aligned
           mode := ⟨est'.trans reads.mode.1, cyc'.trans reads.mode.2⟩, captured := words'.trans reads.captured
           fill := ⟨n, short, ?_⟩, tagged := ?_ }
  · rw [bits, List.flatMap_cons, List.append_assoc, List.append_assoc, List.append_cancel_left_eq] at stream
    rw [rest', stream]
  · rw [rest']
    exact (bits ▸ reads.tagged).behind

/-! ### The steps of the reader -/

section
variable {s : State} (active : s.reader.active = true)
include active

theorem readAll_of_moved {r : Reader} (fetch : readerFetch s.reader = .moved r) (k : Nat) :
    readAll (k + 1) s = readAll k (setReader r s) := by
  simp [readAll, active, fetched, fetch, step_of_active active, readerStep_of_moved fetch, nextState]

theorem readAll_of_message {t : State} {i : Instr} {r : Reader} (fetch : readerFetch s.reader = .message i r)
    (run : exec i (setReader r s) = .next t) (k : Nat) : readAll (k + 1) s = i :: readAll k t := by
  simp [readAll, active, fetched, fetch, step_of_active active, readerStep_of_message fetch, run, nextState]

end

theorem readAll_of_stopped {s : State} (stopped : s.reader.active = false) (k : Nat) : readAll k s = [] := by
  cases k <;> simp [readAll, stopped]

/-- In its steps a reader in the stream decodes the messages: a step for each message, for each word, and one to stop. -/
theorem readAll_of_readsStream {est cyc : Bool} (fuel : Nat) (s : State) (ms : List Instr) (words : List TraceWord)
    (reads : ReadsStream est cyc ms words s.reader) (fit : ∀ i ∈ ms, i ≠ .sRsv ∧ i.fits est cyc = true)
    (last : ∀ i, ms.getLast? = some i → isResume i = false) (enough : ms.length + words.length + 1 ≤ fuel) :
    readAll fuel s = ms := by
  induction fuel generalizing s ms words with
  | zero => omega
  | succ fuel ih =>
    cases ms with
    | nil =>
      rw [readAll_of_moved reads.active (readerFetch_of_atFill (reads.atFill_of_nil rfl))]
      exact readAll_of_stopped rfl fuel
    | cons m ms =>
      have noFill := reads.atFill_of_ne_nil (List.cons_ne_nil m ms) last
      obtain ⟨est', cyc'⟩ := reads.mode
      cases message : decode est cyc s.reader.bits with
      | message i rest =>
        obtain ⟨rfl, bits⟩ := reads.decode_eq (fit m (List.mem_cons_self ..)).2 message
        have fetch := readerFetch_of_decode reads.aligned noFill (by rw [est', cyc']; exact message)
        obtain ⟨r, run, keeps, keepsBits⟩ := exec_reader_keeps i (setReader { s.reader with bits := rest } s) reads.active
        have later : ReadsStream est cyc ms words r := reads.decoded bits keeps (keepsBits (fit i (List.mem_cons_self ..)).1)
        have last' : ∀ j, ms.getLast? = some j → isResume j = false := fun j hj => last j (by
          rw [List.getLast?_cons, hj]; rfl)
        rw [readAll_of_message reads.active fetch run]
        exact congrArg (i :: ·) (ih (setReader r _) ms words later (fun j hj => fit j (List.mem_cons_of_mem _ hj)) last'
          (by simp only [List.length_cons] at enough; omega))
      | truncated =>
        have fetch := readerFetch_of_noMessage noFill (.inr (by rw [est', cyc']; exact message))
        rw [readAll_of_moved reads.active fetch]
        cases words with
        | nil =>
          obtain ⟨n, -, stream⟩ := reads.fill
          have fits := (fit m (List.mem_cons_self ..)).2
          rw [joinData, List.append_nil, List.flatMap_cons, List.append_assoc] at stream
          rw [stream, decodeInvertsEncode est cyc m _ fits] at message
          cases message
        | cons w rest =>
          exact ih (setReader (advanceReader s.reader) s) (m :: ms) rest (reads.take (fun j hj => (fit j hj).2) message) fit last
            (by simp only [List.length_cons] at enough ⊢; omega)

/-- A reader before the words of a whole capture finds its boundary at the start of the first word. -/
theorem readAll_of_capture {est cyc : Bool} {ms : List Instr} {words : List TraceWord} {fill : Nat} (s : State)
    (stream : joinData words = ms.flatMap encode ++ List.replicate fill true) (short : fill < 58) (tagged : Tagged ms [] words)
    (first : ∀ w rest, words = w :: rest → decTag (wordTag w) = some 0) (fit : ∀ i ∈ ms, i ≠ .sRsv ∧ i.fits est cyc = true)
    (last : ∀ i, ms.getLast? = some i → isResume i = false) :
    readAll (ms.length + words.length + 1) (setReader (startReading est cyc (wholeCapture words)) s) = ms := by
  have fetch : readerFetch (startReading est cyc (wholeCapture words)) =
      .moved (advanceReader (startReading est cyc (wholeCapture words))) := readerFetch_of_noMessage rfl (.inl rfl)
  rw [readAll_of_moved rfl fetch]
  cases words with
  | nil =>
    cases ms with
    | nil => rfl
    | cons m ms => simp [joinData, encode_ne_nil] at stream
  | cons w rest =>
    have moved : advanceReader (startReading est cyc (wholeCapture (w :: rest))) =
        { startReading est cyc (wholeCapture (w :: rest)) with words := wholeCapture rest, bits := wordData w, aligned := true } :=
      takeWordBits_of_unaligned (first w rest rfl) rfl
    refine readAll_of_readsStream _ _ ms rest ?_ fit last (by simp)
    rw [moved]
    exact { active := rfl, aligned := rfl, mode := ⟨rfl, rfl⟩, captured := rfl, fill := ⟨fill, short, stream⟩, tagged := tagged.2 }

/-- Settles O57: the unit tags the words it queues, the flush adds fill, and the reader finds the messages in them. -/
theorem readerRecoversSentMessages : Obligations.ReaderRecoversSentMessages := by
  intro est cyc ms s fit last inactive traceOn offChip noWords noBits noStart room
  have start : startPosition s = 0 := by simp [startPosition_eq, noStart, noBits]
  have initial : SendsTagged [] s :=
    { stream := by simp [noWords, noBits, joinData]
      tagged := by rw [noWords]; trivial
      first := by simp [noWords]
      unbegun := fun _ => start
      start := by omega
      atZero := fun _ => ⟨[], List.prefix_rfl, by simp [noWords, joinData]⟩ }
  obtain ⟨t, run, sends, sending, params, below, held⟩ := sendAll_sending SendsTagged (fun _ _ _ _ h below sent => h.send below sent)
    ms [] s (fun i hi => (fit i hi).1) ⟨inactive, traceOn, offChip⟩ (by simp [noBits])
    (by simp only [heldBits, noWords, noBits, List.length_nil]; omega) initial
  have roomAtStop : t.fifo.length < t.params.fifoWords := by
    simp only [heldBits, noWords, noBits, List.length_nil] at held
    rw [params]
    omega
  obtain ⟨u, fill, flushed, short, stream, tagged, first⟩ := flush_sending sends below sending.offChip roomAtStop
  exact ⟨t, u, run, flushed, readAll_of_capture u stream short tagged first fit last⟩

end Sys2Proof.Machine
end

section
/-! The invariant: every operation keeps it, and none of them faults (R62, R310). -/

namespace Sys2Proof.Machine

/-! ### Outcomes -/

/-- The outcome is no fault, and a next state meets `P`. -/
def Sound (P : State → Prop) (o : Result State Fault Refusal) : Prop :=
  match o with
  | .next t => P t
  | .fault _ => False
  | .refused _ => True

theorem Sound.next {P : State → Prop} {o : Result State Fault Refusal} (h : Sound P o) {t : State} (run : o = .next t) : P t := by
  subst run
  exact h

theorem Sound.notFault {P : State → Prop} {o : Result State Fault Refusal} (h : Sound P o) : notFault o := by
  rintro r rfl
  exact h

theorem Sound.and_of_next {P Q : State → Prop} {o : Result State Fault Refusal} (h : Sound P o) (also : ∀ t, o = .next t → Q t) :
    Sound (fun t => P t ∧ Q t) o := by
  cases o with
  | next t => exact ⟨h, also t rfl⟩
  | fault => exact h
  | refused => trivial

theorem Sound.andThen {P Q : State → Prop} {o : Result State Fault Refusal} {k : State → Result State Fault Refusal}
    (h : Sound P o) (go : ∀ t, P t → Sound Q (k t)) : Sound Q (andThen o k) := by
  cases o with
  | next t => exact go t h
  | fault => exact h
  | refused => trivial

theorem Sound.cp0Access {P : State → Prop} {register select : Nat} {k : Bool → Result State Fault Refusal}
    (go : ∀ b, Sound P (k b)) : Sound P (cp0Access register select k) := by
  unfold Machine.cp0Access
  split
  · trivial
  · exact go _

/-! ### Pointers, the accumulator, the tags -/

theorem PointerOk.inTraceMemory {p : Config.Params} {a : Word} (h : PointerOk p a) : inTraceMemory p a = true :=
  decide_eq_true h.2

/-- The parameters' bounds on trace memory: the pointers' fields name all of it, and it lies below the Wrap bit (R10, R39). -/
theorem wf_traceMemory {p : Config.Params} (wf : p.wf = true) :
    1 ≤ p.tmemWords ∧ 2 ≤ p.topBit ∧ p.topBit ≤ 30 ∧ 8 * p.tmemWords ≤ 2 ^ (p.topBit + 1) := by
  simp only [Config.Params.wf, Bool.and_eq_true, decide_eq_true_eq] at wf
  obtain ⟨⟨⟨⟨⟨⟨⟨⟨-, words⟩, low⟩, high⟩, size⟩, -⟩, -⟩, -⟩, -⟩ := wf
  exact ⟨words, low, high, size⟩

/-- Trace words have a place to go, and OfC is preset to the one there is (R10). -/
theorem wf_destination {p : Config.Params} (wf : p.wf = true) :
    (p.hasOnchip = true ∨ p.hasPib = true) ∧ (p.ofcSettable = true ∨ p.ofcPreset = p.hasPib) := by
  simp only [Config.Params.wf, Bool.and_eq_true, Bool.or_eq_true, beq_iff_eq] at wf
  obtain ⟨⟨⟨⟨⟨⟨⟨⟨⟨somewhere, preset⟩, -⟩, -⟩, -⟩, -⟩, -⟩, -⟩, -⟩, -⟩ := wf
  exact ⟨somewhere, preset⟩

/-- All mode bits clear is a legal setting (R23). -/
theorem wf_legal_clear {p : Config.Params} (wf : p.wf = true) : p.legal false false false false false false = true := by
  simp only [Config.Params.wf, Config.Params.legalAlways, Bool.and_eq_true] at wf
  exact wf.2.1.1.1.1

theorem wf_size_lt {p : Config.Params} (wf : p.wf = true) : 8 * p.tmemWords ≤ 2 ^ 31 := by
  obtain ⟨-, -, high, size⟩ := wf_traceMemory wf
  exact size.trans (Nat.pow_le_pow_right (by decide) (by omega))

theorem pointerOk_zero {p : Config.Params} (wf : p.wf = true) : PointerOk p 0#32 := by
  have words := (wf_traceMemory wf).1
  exact ⟨rfl, by simp; omega⟩

/-- A pointer passes its word to the next one, and at the top to the first (R64). -/
theorem PointerOk.advance {p : Config.Params} {a : Word} (h : PointerOk p a) (wf : p.wf = true) : PointerOk p (advance p a) := by
  obtain ⟨aligned, inRange⟩ := h
  have size := wf_size_lt wf
  by_cases top : a.toNat = tmemTop p
  case pos =>
    rw [Machine.advance, if_pos top]
    exact pointerOk_zero wf
  case neg =>
    have next : (a + 8#32).toNat = a.toNat + 8 := by
      rw [BitVec.toNat_add, BitVec.toNat_ofNat]
      omega
    rw [Machine.advance, if_neg top, PointerOk, next]
    rw [tmemTop] at top
    omega

/-- The bits a write leaves in a pointer are those of an aligned address (R38). -/
theorem pointerOk_masked {p : Config.Params} (wf : p.wf = true) (v : Word)
    (inRange : inTraceMemory p (v &&& addressMask p) = true) : PointerOk p (v &&& addressMask p) := by
  refine ⟨?_, of_decide_eq_true inRange⟩
  obtain ⟨-, low, high, -⟩ := wf_traceMemory wf
  have mask : (addressMask p).toNat % 8 = 0 := by
    obtain ⟨k, eq⟩ : ∃ k, p.topBit + 1 = k + 3 := ⟨p.topBit - 2, by omega⟩
    rw [addressMask, BitVec.toNat_ofNat, eq, Nat.pow_add]
    omega
  rw [BitVec.toNat_and, Nat.and_mod_two_pow (n := 3), mask, Nat.and_zero]

/-- The place of the first message, once one begins, is one that a tag can name, and no further than the bits (R113, R202). -/
theorem AccOk.startPosition_le {s : State} (h : AccOk s.acc s.firstStart) :
    startPosition s ≤ 56 ∧ startPosition s ≤ s.acc.length := by
  obtain ⟨-, start⟩ := h
  cases first : s.firstStart with
  | none => simpa [startPosition, first] using start
  | some k =>
    rw [first] at start
    simpa [startPosition, first] using ⟨start.1, start.2.le⟩

theorem AccOk.empty : AccOk [] none := ⟨by decide, by decide⟩

/-- The tag of a word the unit makes begins with a nibble that is not zero (R114, R213). -/
theorem framed_packWord (data : List Bool) {start : Nat} (inWord : start ≤ 56) : Framed (packWord data (encTag start)) := by
  rw [Framed, packWord, BitVec.extractLsb'_append_eq_of_add_le (by decide)]
  exact encTag_first_nibble inWord

theorem zero_ne_rollover : 0#10 ≠ 1023#10 := by decide

/-- A user write stores the user registers and nothing else. -/
theorem storeUser_frame (second : Bool) (v : BitVec 64) (s : State) : storeUser second v s =
    { s with utd1 := (storeUser second v s).utd1, utd2 := (storeUser second v s).utd2 } := by
  cases second <;> rfl

theorem on_of_inTraceOn {s : State} (traceOn : inTraceOn s = true) : s.ifctl.on = true := by
  simp only [inTraceOn, Bool.and_eq_true] at traceOn
  exact traceOn.1.1

/-- The receiver never holds a whole word in nibbles: the sixteenth completes it (R216). -/
theorem sample_nibbles_lt {r : Receiver} (below : r.nibbles.length < 16) (n : BitVec 4) : (sample n r).nibbles.length < 16 := by
  unfold sample
  split_ifs
  · exact below
  · simpa
  · simp

/-! ### Trace words -/

section
variable {s : State} (good : GoodState s)
include good

theorem GoodState.storeWord (w : TraceWord) : GoodState (storeWord w s) :=
  { good with
    memory := memWriteWord_wf _ _ _ good.memory
    range := fun c hc => by
      obtain ⟨aligned, inRange⟩ := good.writePointer
      rcases mem_memWriteWord hc with ⟨-, below⟩ | old
      · show c.1 < 8 * s.params.tmemWords
        omega
      · exact good.range c old
    writePointer := good.writePointer.advance good.params }

theorem GoodState.overflow : GoodState (overflow s) :=
  { good with
    acc := AccOk.empty
    off := fun _ => rfl
    fifo := (dropWords_sublist _ _ _).length_le.trans good.fifo
    framed := fun w hw => good.framed w ((dropWords_sublist _ _ _).mem hw) }

theorem GoodState.queueWord {w : TraceWord} (framed : Framed w) : GoodState (queueWord w s) := by
  rcases queueWord_cases w s with ⟨-, eq⟩ | ⟨room, eq⟩
  · rw [eq]
    exact good.overflow
  · rw [eq]
    have room : s.fifo.length < s.params.fifoWords := by simpa [fifoFull] using room
    exact { good with
      fifo := by simpa using room
      framed := fun v hv => (List.mem_append.mp hv).elim (good.framed v) fun h => List.mem_singleton.mp h ▸ framed }

/-- A trace word finds its place: the write pointer names a word. -/
theorem GoodState.writeWord {w : TraceWord} (framed : Framed w) : Sound GoodState (writeWord w s) := by
  unfold Machine.writeWord
  split
  · exact good.queueWord framed
  · rw [if_pos good.writePointer.inTraceMemory]
    exact good.storeWord w

/-- While On is set, an emission keeps the invariant (R202, R204). -/
theorem GoodState.emit (on : s.ifctl.on = true) {m : List Bool} (nonempty : 1 ≤ m.length) (oneMessage : m.length ≤ 57) :
    Sound GoodState (emit m s) := by
  obtain ⟨start, start_le⟩ := good.acc.startPosition_le
  have below := good.acc.1
  by_cases short : s.acc.length + m.length < 58
  case pos =>
    have acc : AccOk (s.acc ++ m) (some (startPosition s)) := by
      refine ⟨by simpa using short, start, ?_⟩
      rw [List.length_append]
      omega
    rw [Machine.emit, if_pos short]
    exact { good with acc, off := fun off => by simp [on] at off }
  case neg =>
    have acc : AccOk ((s.acc ++ m).drop 58) none := by
      have length : ((s.acc ++ m).drop 58).length ≤ 56 := by simp; omega
      exact ⟨by omega, length⟩
    have emptied : GoodState { s with acc := (s.acc ++ m).drop 58, firstStart := none } :=
      { good with acc, off := fun off => by simp [on] at off }
    have framed : Framed (completedWord m s) := framed_packWord _ (startPosition_eq s ▸ start)
    rw [emit_full (by omega)]
    exact emptied.writeWord framed

/-- A stop keeps the invariant: IFCTL is written while bits are there, and they are gone when it is done (R205, R233). -/
theorem GoodState.flush_withIfctl {r : Ifctl} (ok : IfctlOk s.params r) : Sound GoodState (flush (withIfctl r s)) := by
  have cleared : GoodState (clearAcc (withIfctl r s)) := { good with ifctl := ok, acc := AccOk.empty, off := fun _ => rfl }
  unfold Machine.flush
  split
  · exact cleared
  · exact cleared.writeWord (framed_packWord _ good.acc.startPosition_le.1)

theorem GoodState.garbage (on : s.ifctl.on = true) (ms : List (List Bool)) : Sound GoodState (garbage ms s) := by
  induction ms generalizing s with
  | nil => exact good
  | cons m rest ih =>
    have one : Sound (fun t => GoodState t ∧ t.ifctl.on = true) (emitGarbage m s) := by
      unfold emitGarbage
      split
      · exact ⟨good, on⟩
      · split
        · exact ⟨good, on⟩
        · rename_i nonempty _
          have length : m.length ≠ 0 := by simpa using nonempty
          refine (good.emit on (m := m.take 57) (by simp; omega) (by simp)).and_of_next fun t run => ?_
          rw [emit_frame run]
          exact on
    exact one.andThen fun t h => ih h.1 h.2

/-! ### Trace-on and triggers -/

theorem GoodState.traceStart (d : Config.Draws) : GoodState (traceStart d s) :=
  { good with
    sync := by
      have period : syncPeriod s.ifctl ≤ 2 ^ 23 := Nat.pow_le_pow_right (by decide) (by omega)
      have drawn := Nat.mod_lt d.syncPhase (Nat.two_pow_pos (s.ifctl.syp.toNat + 8))
      show 1 + d.syncPhase % syncPeriod s.ifctl ≤ 2 ^ 23
      rw [syncPeriod] at period ⊢
      omega
    cycles := by
      show BitVec.ofNat 10 (d.dcycPhase % 1023) ≠ 1023#10
      have drawn := Nat.mod_lt d.dcycPhase (show 1023 > 0 by decide)
      intro h
      have := congrArg BitVec.toNat h
      simp at this
      omega }

theorem GoodState.reevaluate (d : Config.Draws) (was : Bool) : GoodState (reevaluate d was s) := by
  rcases reevaluate_cases d was s with ⟨-, -, eq⟩ | ⟨-, eq⟩
  · rw [eq]
    exact good.traceStart d
  · rw [eq]
    exact good

theorem GoodState.applyTrigger (d : Config.Draws) (b : Bool) : GoodState (applyTrigger d b s) := by
  rcases applyTrigger_cases d b s with ⟨-, eq⟩ | ⟨-, eq⟩
  · rw [eq]
    exact good
  · have switched : GoodState (setEn b { s with discont := true }) := { good with }
    rw [eq]
    exact switched.reevaluate d _

/-! ### Messages -/

theorem GoodState.beforeEmit (i : Instr) : GoodState (beforeEmit i s) := by
  cases i with
  | sRes => exact { good with cycles := zero_ne_rollover }
  | nSeq | nBt | nJ8 | nJ16 | nFpc | nRes | sDcr | sUtm | sRsv | sBm | sFd | sFce => exact { good with }

/-- A message keeps the invariant: on the reader's side it changes the reader only, on the unit's side it is emitted. -/
theorem GoodState.exec (i : Instr) : Sound GoodState (exec i s) := by
  cases inactive : s.reader.active with
  | true =>
    obtain ⟨r, run⟩ := exec_reader i s inactive
    rw [run]
    exact { good with }
  | false =>
    by_cases real : i = .sRsv
    · rw [real, Machine.exec, execSRsv, if_neg (by simp [inactive])]
      trivial
    · rw [exec_unit i s real inactive]
      split
      · rename_i traceOn
        have on : (Machine.beforeEmit i s).ifctl.on = true := by simpa using on_of_inTraceOn traceOn
        exact (good.beforeEmit i).emit on (encode_length i).1 (encode_length i).2
      · exact good

theorem GoodState.generate (ms : List Instr) : GoodState (generate ms s) := by
  unfold Machine.generate
  split
  · exact good
  · exact { good with cycles := zero_ne_rollover }

theorem GoodState.traceNormal (d : Config.Draws) (i : Retired) : GoodState (traceNormal d i s) := by
  have period : syncPeriod s.ifctl ≤ 2 ^ 23 := Nat.pow_le_pow_right (by decide) (by omega)
  have sync : (syncStep s).2.syncCtr ≤ 2 ^ 23 := by
    have := good.sync
    unfold syncStep
    split
    · exact period
    · exact (Nat.sub_le _ _).trans this
  have frame : (syncStep s).2 = { s with syncCtr := (syncStep s).2.syncCtr } := by
    unfold syncStep
    split <;> rfl
  rw [Machine.traceNormal, frame]
  exact { good with sync }

/-! ### The events of the core -/

theorem GoodState.offerNormal (d : Config.Draws) (i : Retired) : Sound GoodState (offerNormal d i s) := by
  unfold Machine.offerNormal
  split
  · split
    · exact good.garbage (on_of_inTraceOn ‹_›) _
    · exact good.traceNormal d i
  · exact good

theorem GoodState.offerSpecial (d : Config.Draws) (i : Retired) : Sound GoodState (offerSpecial d i s) := by
  unfold Machine.offerSpecial traceSpecial
  split
  · split
    · exact good.garbage (on_of_inTraceOn ‹_›) _
    · split_ifs
      · trivial
      · trivial
      · exact good.generate _
  · exact good

theorem GoodState.retire (d : Config.Draws) (i : Retired) : Sound GoodState (retire d i s) := by
  have triggered : GoodState (applyTrigger? d (triggerBefore d i s) s) := by
    cases triggerBefore d i s with
    | none => exact good
    | some b => exact good.applyTrigger d b
  unfold Machine.retire
  split_ifs
  · exact good
  · exact good.offerSpecial d i
  · have latched : GoodState { applyTrigger? d (triggerBefore d i s) s with latchedEn := triggerAfter d i s } :=
      { triggered with }
    exact latched.offerNormal d i

theorem GoodState.storeUser (second : Bool) (v : BitVec 64) : GoodState (storeUser second v s) := by
  have low : ((v.setWidth 32).setWidth 64).toNat < 2 ^ 32 := by
    rw [BitVec.toNat_setWidth_of_le (by decide)]
    exact (v.setWidth 32).isLt
  have written (narrow : s.params.regWidth64 = false) :
      (if s.params.regWidth64 then v else (v.setWidth 32).setWidth 64).toNat < 2 ^ 32 := by
    simpa only [narrow, Bool.false_eq_true, if_false] using low
  cases second with
  | false => exact { good with user := fun narrow => ⟨written narrow, (good.user narrow).2⟩ }
  | true => exact { good with user := fun narrow => ⟨(good.user narrow).1, written narrow⟩ }

theorem GoodState.cp0Write (d : Config.Draws) (second : Bool) (v : BitVec 64) : Sound GoodState (cp0Write d second v s) := by
  have stored := good.storeUser second v
  have ifctl : (Machine.storeUser second v s).ifctl = s.ifctl := by rw [storeUser_frame]
  unfold Machine.cp0Write
  split_ifs with unpredictable
  · simp only [Bool.and_eq_true] at unpredictable
    exact stored.garbage (ifctl ▸ on_of_inTraceOn unpredictable.1) _
  · exact stored.generate _
  · exact stored

theorem GoodState.countCycle : GoodState (countCycle s) := by
  unfold Machine.countCycle
  split
  · exact { good with cycles := zero_ne_rollover }
  · exact { good with cycles := ‹_› }

theorem GoodState.tick (d : Config.Draws) (clockRunning : Bool) : Sound GoodState (tick d clockRunning s) := by
  unfold Machine.tick
  split_ifs with idle
  · exact good
  · simp only [Bool.or_eq_true, Bool.not_eq_true', not_or, Bool.not_eq_false] at idle
    exact good.garbage (on_of_inTraceOn idle.2) _
  · exact good.countCycle
  · exact good

/-! ### Register accesses -/

theorem GoodState.readTraceWord (v : TraceWord → BitVec 64) {k : State → State} (kept : GoodState (k s)) :
    Sound GoodState (readTraceWord v k s) := by
  unfold Machine.readTraceWord
  split
  · trivial
  · rw [if_pos good.readPointer.inTraceMemory]
    exact { kept with }

theorem GoodState.readWord32 (r : DrsegReg) : Sound GoodState (readWord32 r s) := by
  have advanced : GoodState (advanceRead s) := { good with readPointer := good.readPointer.advance good.params }
  have answered : ∀ v, Sound GoodState (returns v s) := fun v => { good with }
  unfold Machine.readWord32
  cases r with
  | itcbtwLow => exact good.readTraceWord _ advanced
  | itcbtwHigh => exact good.readTraceWord (k := id) _ good
  | itcbrdp | itcbwrp | ifctl | itrig | dtrig => exact answered _

theorem GoodState.readWord64 (r : DrsegReg) : Sound GoodState (readWord64 r s) := by
  have advanced : GoodState (advanceRead s) := { good with readPointer := good.readPointer.advance good.params }
  cases r with
  | itcbtwLow =>
    rw [Machine.readWord64]
    split
    · exact good.readTraceWord _ advanced
    · trivial
  | itcbtwHigh | itcbrdp | itcbwrp | ifctl | itrig | dtrig => trivial

theorem GoodState.readRegister (r : DrsegReg) (width : Width) : Sound GoodState (readRegister r width s) := by
  cases width with
  | byte | half => trivial
  | word => exact good.readWord32 r
  | double => exact good.readWord64 r

theorem GoodState.regRead (offset : Nat) (width : Width) : Sound GoodState (regRead offset width s) := by
  unfold Machine.regRead
  split
  · trivial
  · split
    · trivial
    · exact good.readRegister _ width

/-- A write leaves IFCTL one its implementation can hold (R24, R232, R235). -/
theorem GoodState.ifctlWritten (v : Word) : IfctlOk s.params (ifctlWritten s.params v s.ifctl) := by
  obtain ⟨cyc, fdt, bm, er, fcr, est, offChip, onChip, -⟩ := good.ifctl
  refine ⟨?_, ?_, ?_, ?_, ?_, ?_, ?_, ?_, rfl⟩
  all_goals simp only [Machine.ifctlWritten, ifctlFields]
  case refine_7 | refine_8 =>
    split
    · rename_i settable
      simp only [Config.Params.ofcSettable, Bool.and_eq_true] at settable
      simp [settable]
    · assumption
  all_goals
    intro absent
    simp only [absent]
    simp [*]

theorem GoodState.writeIfctl (d : Config.Draws) (v : Word) : Sound GoodState (writeIfctl d v s) := by
  have ok := good.ifctlWritten v
  unfold Machine.writeIfctl
  split_ifs with change stop
  · trivial
  · exact good.flush_withIfctl ok
  · have off : (Machine.ifctlWritten s.params v s.ifctl).on = false → s.acc = [] := fun off => good.off (by
      simpa [stops, off] using stop)
    have written : GoodState (withIfctl (Machine.ifctlWritten s.params v s.ifctl) s) := { good with ifctl := ok, off := off }
    exact written.reevaluate d _

theorem GoodState.writeRdp (v : Word) : Sound GoodState (writeRdp v s) := by
  unfold Machine.writeRdp
  split
  · exact { good with readPointer := pointerOk_masked good.params v ‹_› }
  · trivial

theorem GoodState.writeWrp (v : Word) : Sound GoodState (writeWrp v s) := by
  unfold Machine.writeWrp
  split
  · exact { good with writePointer := pointerOk_masked good.params v ‹_› }
  · trivial

theorem GoodState.regWrite (d : Config.Draws) (offset : Nat) (width : Width) (v : BitVec 64) :
    Sound GoodState (regWrite d offset width v s) := by
  unfold Machine.regWrite
  split
  · trivial
  · rename_i r _
    split
    · trivial
    · cases width with
      | byte | half | double => trivial
      | word =>
        cases r with
        | itcbtwLow | itcbtwHigh => exact good
        | itcbrdp => exact good.writeRdp _
        | itcbwrp => exact good.writeWrp _
        | ifctl => exact good.writeIfctl d _
        | itrig | dtrig => exact { good with }

/-! ### The port -/

theorem GoodState.slot (n : BitVec 4) : GoodState (slot n s) :=
  { good with
    receiving := by
      unfold Machine.slot
      split
      · exact sample_nibbles_lt good.receiving n
      · exact Nat.zero_lt_succ _ }

theorem GoodState.drive (tx : Option Tx) : GoodState (drive tx s) :=
  { good with port := rfl }

theorem GoodState.transfer (t : Tx) : GoodState (transfer t s) :=
  (good.slot _).drive _

theorem GoodState.idleSlot : GoodState (idleSlot s) := by
  rcases idleSlot_cases s with ⟨-, -, eq⟩ | ⟨-, eq⟩
  · rw [eq]
    exact (good.slot _).drive _
  · rw [eq]
    exact good

theorem GoodState.pibTake : GoodState (pibTake s) := by
  rcases pibTake_cases s with ⟨w, rest, fifo, -, -, -, eq⟩ | ⟨-, eq⟩
  · have taken : GoodState { s with fifo := rest } :=
      { good with
        fifo := by
          have := good.fifo
          rw [fifo, List.length_cons] at this
          exact Nat.le_of_succ_le this
        framed := fun v hv => good.framed v (fifo ▸ List.mem_cons_of_mem w hv) }
    rw [eq]
    exact taken.drive _
  · rw [eq]
    exact good.idleSlot

/-! ### The events -/

end

/-- Settles O58: each field of the reset state is a constant or a parameter. -/
theorem resetMeetsInv : Obligations.ResetMeetsInv := by
  intro p wf
  obtain ⟨somewhere, preset⟩ := wf_destination wf
  have settable : p.ofcSettable = true → p.hasOnchip = true ∧ p.hasPib = true := by
    simp [Config.Params.ofcSettable]
  have ifctl : IfctlOk p (Ifctl.reset p) := by
    refine ⟨fun _ => rfl, fun _ => rfl, fun _ => rfl, fun _ => rfl, fun _ => rfl, fun _ => rfl, fun offChip => ?_, fun onChip => ?_, ?_⟩
    · rcases preset with h | h
      · exact (settable h).2
      · exact h ▸ offChip
    · rcases preset with h | h
      · exact (settable h).1
      · exact somewhere.resolve_right (by rw [← h]; simpa [Ifctl.reset] using onChip)
    · simp [illegalOf, Ifctl.reset, wf_legal_clear wf]
  exact
    { params := wf
      memory := rfl
      range := nofun
      readPointer := pointerOk_zero wf
      writePointer := pointerOk_zero wf
      ifctl
      acc := AccOk.empty
      off := fun _ => rfl
      fifo := Nat.zero_le _
      framed := nofun
      sync := Nat.zero_le _
      cycles := zero_ne_rollover
      user := fun _ => ⟨Nat.two_pow_pos 32, Nat.two_pow_pos 32⟩
      receiving := Nat.zero_lt_succ _
      port := rfl
      probe := fun _ => rfl }

section
variable {s : State} (good : GoodState s)
include good

theorem GoodState.resetEvent : GoodState (resetEvent s) :=
  { resetMeetsInv s.params good.params with receiving := good.receiving, probe := good.probe }

theorem GoodState.handleEvent (d : Config.Draws) (e : Event) : Sound GoodState (handleEvent d e s) := by
  cases e with
  | tick clockRunning => exact good.tick d clockRunning
  | retire i => exact good.retire d i
  | cp0Write register select v => exact Sound.cp0Access fun second => good.cp0Write d second v
  | cp0Read register select => exact Sound.cp0Access fun second => { good with }
  | regRead offset width => exact good.regRead offset width
  | regWrite offset width v => exact good.regWrite d offset width v
  | debugLeave =>
    have left : GoodState { s with debugMode := false } := { good with }
    exact left.reevaluate d _
  | pibTake => exact good.pibTake
  | idleSlot => exact good.idleSlot
  | probeAttach connected => exact { good with probe := fun tied => by simp [probeAttach, show s.params.hasTrProbeN = false from tied] }
  | reset => exact good.resetEvent
  | config3Read | debugEnter | capture | captureProbe => exact { good with }

/-! ### The steps -/

theorem GoodState.readerStep : Sound GoodState (readerStep s) := by
  have moved : ∀ r, GoodState (setReader r s) := fun r => { good with }
  unfold Machine.readerStep
  split
  · exact (moved _).exec _
  · exact moved _

theorem GoodState.unitStep (d : Config.Draws) : Sound GoodState (unitStep d s) := by
  have event : Sound GoodState (eventStep d s) := by
    unfold eventStep
    split
    · exact good
    · rename_i e rest _
      have taken : GoodState (tookDraw { s with events := rest }) := { good with }
      exact taken.handleEvent d e
  unfold Machine.unitStep
  split
  · rename_i i s' next
    obtain ⟨j, rest, -, head, -⟩ := busNext_some next
    have taken : GoodState s' := by
      rw [busHead_frame head]
      exact { good with }
    exact taken.exec i
  · split
    · have took : GoodState { tookDraw s with latchedEn := none } := { good with }
      exact took.applyTrigger d _
    · exact event

/-- A step from a good state is no fault, and leads to a good state. -/
theorem GoodState.step : Sound GoodState (step s) := by
  unfold Machine.step stepWith
  split
  · exact good.readerStep
  · split
    · exact good.transfer _
    · exact good.unitStep _

end

/-- Settles O59: each operation that a step is made of keeps the invariant. -/
theorem stepKeepsInv : Obligations.StepKeepsInv := fun _ _ good run => good.step.next run

/-- Settles O60: the pointers of a good state name words, so no word written or read is missing. -/
theorem invStepNeverFaults : Obligations.InvStepNeverFaults := fun _ good => good.step.notFault

end Sys2Proof.Machine
end

section
/-! The register writes: IFCTL (R232 to R235, R321), ITCBTW (R239), the trigger-enable and the user registers (R242 to R245). -/

namespace Sys2Proof.Machine

/-! ### Writes of registers that exist -/

/-- The decoding of an access (R61) adds nothing to the aligned 32-bit write of a register that this implementation has. -/
theorem regWrite_word_eq_writeWord32 {offset : Nat} {r : DrsegReg} {d : Config.Draws} {v : BitVec 64} {s : State}
    (assigned : drsegReg offset = some r) (present : needsTraceMemory r = true → s.params.hasOnchip = true) :
    regWrite d offset .word v s = writeWord32 d r (v.setWidth 32) s := by
  have noRefusal : ¬ (needsTraceMemory r && !s.params.hasOnchip) = true := by simpa using present
  simp only [regWrite, assigned, if_neg noRefusal, writeRegister]

theorem regWrite_ifctl (d : Config.Draws) (v : BitVec 64) (s : State) :
    regWrite d 0x3FC0 .word v s = writeIfctl d (v.setWidth 32) s :=
  regWrite_word_eq_writeWord32 (r := .ifctl) rfl nofun

/-- Settles O33: the arm of each half leaves the state as it is. -/
theorem traceWordWriteIsIgnored : Obligations.TraceWordWriteIsIgnored := fun _ _ _ hasOnchip =>
  ⟨regWrite_word_eq_writeWord32 (r := .itcbtwLow) rfl fun _ => hasOnchip,
    regWrite_word_eq_writeWord32 (r := .itcbtwHigh) rfl fun _ => hasOnchip⟩

/-! ### IFCTL -/

/-- What a write of IFCTL leaves in the fields that every implementation has. -/
theorem ifctlWritten_controls (p : Config.Params) (v : BitVec 64) (r : Ifctl) :
    (ifctlWritten p (v.setWidth 32) r).on = v.getLsbD 0 ∧ (ifctlWritten p (v.setWidth 32) r).en = v.getLsbD 1 ∧
      (ifctlWritten p (v.setWidth 32) r).io = v.getLsbD 2 ∧ (ifctlWritten p (v.setWidth 32) r).ofClk = v.getLsbD 4 ∧
      (ifctlWritten p (v.setWidth 32) r).syp = v.extractLsb' 5 4 := by
  refine ⟨by simp [ifctlWritten, ifctlFields], by simp [ifctlWritten, ifctlFields], by simp [ifctlWritten, ifctlFields],
    by simp [ifctlWritten, ifctlFields], ?_⟩
  refine BitVec.eq_of_getLsbD_eq fun k hk => ?_
  have inWord : 5 + k < 32 := by omega
  simp [ifctlWritten, ifctlFields, inWord]

theorem ifctlWritten_on (p : Config.Params) (v : BitVec 64) (r : Ifctl) :
    (ifctlWritten p (v.setWidth 32) r).on = v.getLsbD 0 := (ifctlWritten_controls p v r).1

/-- What a write of IFCTL leaves in the mode bits and in OfC: the bit written where it is implemented, else the old one (R24, R232). -/
theorem ifctlWritten_modes (p : Config.Params) (v : BitVec 64) (r : Ifctl) :
    (ifctlWritten p (v.setWidth 32) r).cyc = (if p.implCyc then v.getLsbD 14 else r.cyc) ∧
      (ifctlWritten p (v.setWidth 32) r).fdt = (if p.implFdt then v.getLsbD 13 else r.fdt) ∧
      (ifctlWritten p (v.setWidth 32) r).bm = (if p.implBm then v.getLsbD 12 else r.bm) ∧
      (ifctlWritten p (v.setWidth 32) r).er = (if p.implEr then v.getLsbD 11 else r.er) ∧
      (ifctlWritten p (v.setWidth 32) r).fcr = (if p.implFcr then v.getLsbD 10 else r.fcr) ∧
      (ifctlWritten p (v.setWidth 32) r).est = (if p.implEst then v.getLsbD 9 else r.est) ∧
      (ifctlWritten p (v.setWidth 32) r).ofc = (if p.hasOnchip && p.hasPib then v.getLsbD 3 else r.ofc) := by
  simp [ifctlWritten, ifctlFields, Config.Params.ofcSettable]

theorem reevaluate_frame (d : Config.Draws) (was : Bool) (s : State) : reevaluate d was s = { s with
    needFullPc := (reevaluate d was s).needFullPc, syncCtr := (reevaluate d was s).syncCtr
    dcyc := (reevaluate d was s).dcyc } := by
  rcases reevaluate_cases d was s with ⟨-, -, eq⟩ | ⟨-, eq⟩
  · rw [eq]
    rfl
  · rw [eq]

/-- A write that is no stop and changes no mode under way is taken, and In_TraceOn is re-evaluated (R232 to R234). -/
theorem writeIfctl_taken {d : Config.Draws} {v : Word} {s : State}
    (noChange : modeChangeWhileOn s.ifctl (ifctlWritten s.params v s.ifctl) = false)
    (noStop : stops s.ifctl (ifctlWritten s.params v s.ifctl) = false) :
    writeIfctl d v s = .next (reevaluate d (inTraceOn s) (withIfctl (ifctlWritten s.params v s.ifctl) s)) := by
  rw [writeIfctl, if_neg (by simp [noChange]), if_neg (by simp [noStop])]

/-- Settles O27: with On = 0 nothing is refused and nothing flushed, and In_TraceOn re-evaluated leaves the register as written. -/
theorem ifctlWriteSetsFields : Obligations.IfctlWriteSetsFields := by
  intro d s v off
  have taken : regWrite d 0x3FC0 .word v s =
      .next (reevaluate d (inTraceOn s) (withIfctl (ifctlWritten s.params (v.setWidth 32) s.ifctl) s)) := by
    rw [regWrite_ifctl, writeIfctl_taken (by simp [modeChangeWhileOn, off]) (by simp [stops, off])]
  obtain ⟨on, en, io, ofClk, syp⟩ := ifctlWritten_controls s.params v s.ifctl
  obtain ⟨cyc, fdt, bm, er, fcr, est, ofc⟩ := ifctlWritten_modes s.params v s.ifctl
  refine ⟨_, taken, ?_⟩
  rw [reevaluate_frame]
  exact ⟨cyc, fdt, bm, er, fcr, est, syp, ofClk, ofc, io, en, on, rfl, rfl, rfl, rfl, rfl⟩

/-! ### A stop -/

theorem flush_of_nil {s : State} (empty : s.acc = []) : flush s = .next (clearAcc s) := by
  simp [flush, empty]

theorem flush_of_ne_nil {s : State} (nonempty : s.acc ≠ []) : flush s = writeWord (flushWord s) (clearAcc s) := by
  rw [flush, if_neg (by simpa using nonempty)]

theorem flushWord_eq (s : State) : flushWord s =
    packWord (s.acc ++ List.replicate (58 - s.acc.length) true) (encTag (s.firstStart.getD s.acc.length)) := by
  rw [flushWord, startPosition_eq]

/-- Settles O28: a stop is a flush under IFCTL as written, and the flush writes the bits left under ones. -/
theorem stopFlushesPartialWord : Obligations.StopFlushesPartialWord := by
  intro d s v on stop
  have off : (ifctlWritten s.params (v.setWidth 32) s.ifctl).on = false := (ifctlWritten_on ..).trans stop
  have flushes : regWrite d 0x3FC0 .word v s = flush (withIfctl (ifctlWritten s.params (v.setWidth 32) s.ifctl) s) := by
    rw [regWrite_ifctl, writeIfctl, if_neg (by simp [modeChangeWhileOn, off]), if_pos (by simp [stops, on, off])]
  generalize ifctlWritten s.params (v.setWidth 32) s.ifctl = r at off flushes ⊢
  refine ⟨fun empty => ?empty, fun nonempty onChip inRange => ?stored, fun nonempty offChip room => ?queued⟩
  case empty => exact ⟨_, flushes.trans (flush_of_nil empty), off, rfl, rfl, rfl, rfl, rfl, rfl⟩
  case stored =>
    have written := writeWord_onChip (w := flushWord (withIfctl r s)) (s := clearAcc (withIfctl r s)) onChip inRange
    exact ⟨_, (flushes.trans (flush_of_ne_nil nonempty)).trans written, off, rfl, rfl, rfl, by rw [flushWord_eq]; rfl, rfl, rfl⟩
  case queued =>
    have written := writeWord_queued (w := flushWord (withIfctl r s)) (s := clearAcc (withIfctl r s)) offChip room
    exact ⟨_, (flushes.trans (flush_of_ne_nil nonempty)).trans written, off, rfl, rfl, rfl, rfl, rfl, by rw [flushWord_eq]; rfl⟩

/-- Settles O29: with On kept there is no flush; a rise of In_TraceOn asks for a full PC and nothing else does. -/
theorem enableDoesNotFlush : Obligations.EnableDoesNotFlush := by
  intro d s v on stays noChange
  have stays' : (ifctlWritten s.params (v.setWidth 32) s.ifctl).on = true := (ifctlWritten_on ..).trans stays
  have taken := writeIfctl_taken (d := d) noChange (by simp [stops, stays'])
  rw [← regWrite_ifctl] at taken
  refine ⟨_, taken, ?_⟩
  obtain ⟨-, en, -⟩ := ifctlWritten_controls s.params v s.ifctl
  generalize ifctlWritten s.params (v.setWidth 32) s.ifctl = r at en ⊢
  rcases reevaluate_cases d (inTraceOn s) (withIfctl r s) with ⟨was, is, eq⟩ | ⟨noRise, eq⟩ <;> rw [eq]
  · exact ⟨en, rfl, rfl, rfl, rfl, rfl, rfl, fun _ _ => rfl, fun h => by simp [was] at h⟩
  · refine ⟨en, rfl, rfl, rfl, rfl, rfl, rfl, fun was is => ?_, fun _ => rfl⟩
    simp [was, is] at noRise

/-- A difference in one of the modes, or in OfC, while On stays 1, is a mode change under way (R321). -/
theorem modeChangeWhileOn_of_ne {r r' : Ifctl} (on : r.on = true) (on' : r'.on = true)
    (ne : r.est ≠ r'.est ∨ r.cyc ≠ r'.cyc ∨ r.fdt ≠ r'.fdt ∨ r.bm ≠ r'.bm ∨ r.er ≠ r'.er ∨ r.fcr ≠ r'.fcr ∨ r.ofc ≠ r'.ofc) :
    modeChangeWhileOn r r' = true := by
  simpa [modeChangeWhileOn, on, on', or_assoc] using ne

/-- Settles O30: a bit written that is implemented stands in the new IFCTL, so its change is a mode change. -/
theorem modeChangeWhileOnIsRefused : Obligations.ModeChangeWhileOnIsRefused := by
  intro d s v on stays changed
  obtain ⟨cyc, fdt, bm, er, fcr, est, ofc⟩ := ifctlWritten_modes s.params v s.ifctl
  have on' := (ifctlWritten_on s.params v s.ifctl).trans stays
  have change : modeChangeWhileOn s.ifctl (ifctlWritten s.params (v.setWidth 32) s.ifctl) = true := by
    refine modeChangeWhileOn_of_ne on on' ?_
    rw [cyc, fdt, bm, er, fcr, est, ofc]
    rcases changed with ⟨impl, ne⟩ | ⟨impl, ne⟩ | ⟨impl, ne⟩ | ⟨impl, ne⟩ | ⟨impl, ne⟩ | ⟨impl, ne⟩ | ⟨onchip, pib, ne⟩
    · exact .inl (by rw [if_pos impl]; exact ne.symm)
    · exact .inr (.inl (by rw [if_pos impl]; exact ne.symm))
    · exact .inr (.inr (.inl (by rw [if_pos impl]; exact ne.symm)))
    · exact .inr (.inr (.inr (.inl (by rw [if_pos impl]; exact ne.symm))))
    · exact .inr (.inr (.inr (.inr (.inl (by rw [if_pos impl]; exact ne.symm)))))
    · exact .inr (.inr (.inr (.inr (.inr (.inl (by rw [if_pos impl]; exact ne.symm))))))
    · exact .inr (.inr (.inr (.inr (.inr (.inr (by rw [onchip, pib]; exact ne.symm))))))
  rw [regWrite_ifctl, writeIfctl, if_pos change]

/-! ### The trigger-enable registers -/

theorem getLsbD_trigValue (r : TrigReg) (k : Nat) :
    (trigValue r).getLsbD k = if k < 15 then r.brk.getLsbD k else k == 28 && r.gate := by
  simp only [trigValue, BitVec.getLsbD_append, BitVec.getLsbD_zero, Nat.sub_sub, BitVec.getLsbD_ofBool]
  split_ifs with low zeros bit
  · rfl
  · have other : k ≠ 28 := by omega
    simp [other]
  · obtain rfl : k = 28 := by omega
    rfl
  · have other : k ≠ 28 := by omega
    simp [other]

/-- What a trigger-enable register reads back is bits 28 and 14:0 of what was written (R242). -/
theorem trigValue_trigWritten (v : BitVec 64) : (trigValue (trigWritten (v.setWidth 32))).setWidth 64 = v &&& 0x10007FFF#64 := by
  have mask : ∀ k : Fin 64, (0x10007FFF#64).getLsbD k = decide (k.val < 15 ∨ k.val = 28) := by decide
  refine BitVec.eq_of_getLsbD_eq fun k hk => ?_
  rw [BitVec.getLsbD_and, mask ⟨k, hk⟩, BitVec.getLsbD_setWidth, getLsbD_trigValue]
  by_cases low : k < 15
  case pos =>
    have inWord : k < 32 := by omega
    simp [trigWritten, low, hk, inWord]
  case neg =>
    by_cases bit : k = 28
    · subst bit
      simp [trigWritten]
    · simp [low, bit]

/-- Settles O35: the write leaves its two fields, and the read gives them back. -/
theorem triggerRegistersReadBack : Obligations.TriggerRegistersReadBack := by
  intro d s v
  have readsBack := trigValue_trigWritten v
  refine ⟨⟨_, regWrite_word_eq_writeWord32 (r := .itrig) rfl nofun, rfl, ?_⟩,
    ⟨_, regWrite_word_eq_writeWord32 (r := .dtrig) rfl nofun, rfl, ?_⟩⟩
  · rw [← readsBack]
    exact regRead_word_eq_readWord32 (r := .itrig) rfl nofun
  · rw [← readsBack]
    exact regRead_word_eq_readWord32 (r := .dtrig) rfl nofun

/-! ### The user registers -/

/-- A 32-bit register keeps the low half of a write (R42). -/
theorem setWidth_32_64 (v : BitVec 64) : (v.setWidth 32).setWidth 64 = v &&& 0xFFFFFFFF#64 := by
  refine BitVec.eq_of_toNat_eq ?_
  rw [BitVec.toNat_setWidth_of_le (by decide), BitVec.toNat_setWidth, BitVec.toNat_and]
  exact (Nat.and_two_pow_sub_one_eq_mod v.toNat 32).symm

theorem storeUser_first (v : BitVec 64) (s : State) :
    storeUser false v s = { s with utd1 := if s.params.regWidth64 then v else v &&& 0xFFFFFFFF#64 } := by
  rw [← setWidth_32_64]
  rfl

theorem storeUser_second (v : BitVec 64) (s : State) :
    storeUser true v s = { s with utd2 := if s.params.regWidth64 then v else v &&& 0xFFFFFFFF#64 } := by
  rw [← setWidth_32_64]
  rfl

/-- Outside special mode, or with trace off, a user write stores its register and makes no message (D23). -/
theorem cp0Write_silent {s : State} (silent : inTraceOn s = false ∨ (unpredictable s.ifctl = false ∧ s.ifctl.est = false))
    (d : Config.Draws) (second : Bool) (v : BitVec 64) : cp0Write d second v s = .next (storeUser second v s) := by
  rcases silent with traceOff | ⟨predictable, normal⟩
  · simp [cp0Write, traceOff]
  · simp [cp0Write, predictable, normal]

/-- Settles O36: a silent write stores its register, and the read returns it. -/
theorem userRegistersHoldWrites : Obligations.UserRegistersHoldWrites := by
  intro d e s v silent
  have first := (cp0Write_silent silent d false v).trans (congrArg _ (storeUser_first v s))
  have second := (cp0Write_silent silent d true v).trans (congrArg _ (storeUser_second v s))
  exact ⟨_, _, first, second, rfl, rfl, rfl, rfl⟩

/-! ### Reset -/

theorem regRead_ifctl (s : State) :
    regRead 0x3FC0 .word s = .next { s with readData := (ifctlValue s.ifctl).setWidth 64 } :=
  regRead_word_eq_readWord32 (r := .ifctl) rfl nofun

/-- After reset IFCTL holds OfC as preset, in bit 3, and zeros. -/
theorem ifctlValue_reset (p : Config.Params) :
    (ifctlValue (Ifctl.reset p)).setWidth 64 = if p.ofcPreset then 8#64 else 0#64 := by
  cases preset : p.ofcPreset <;> simp only [Ifctl.reset, preset] <;> rfl

theorem wrpValue_reset (p : Config.Params) : wrpValue (State.resetOf p) = 0#32 := by
  simp [wrpValue, State.resetOf]

theorem trigValue_reset : (trigValue { gate := false, brk := 0#15 }).setWidth 64 = 0#64 := by decide

theorem getLsbD_config3Value_itl (p : Config.Params) : (config3Value p).getLsbD 8 = true := by
  unfold config3Value
  split <;> simp

/-- Settles O37: each register reads its field of the reset state, and the reset event is that state but for the agents outside. -/
theorem resetRegisterValues : Obligations.ResetRegisterValues := by
  refine ⟨fun p wf => ⟨fun r run => ?ifctl, ⟨_, regRead_ifctl _⟩, fun hasOnchip => ⟨?rdp, ?wrp⟩, ?itrig, ?dtrig, rfl, rfl, ?config3⟩,
    fun d s => ⟨resetEvent s, rfl, ?event⟩⟩
  case ifctl =>
    rw [regRead_ifctl] at run
    cases run
    exact ifctlValue_reset p
  case rdp => exact (regRead_word_eq_readWord32 (offset := 0x3F88) (r := .itcbrdp) (s := State.resetOf p) rfl fun _ => hasOnchip).trans rfl
  case wrp =>
    rw [regRead_word_eq_readWord32 (r := .itcbwrp) rfl fun _ => hasOnchip, readWord32, wrpValue_reset]
    rfl
  case itrig =>
    rw [regRead_word_eq_readWord32 (r := .itrig) rfl nofun]
    exact congrArg (returns · (State.resetOf p)) trigValue_reset
  case dtrig =>
    rw [regRead_word_eq_readWord32 (r := .dtrig) rfl nofun]
    exact congrArg (returns · (State.resetOf p)) trigValue_reset
  case config3 => exact ⟨_, rfl, getLsbD_config3Value_itl p⟩
  case event => simp [resetEvent, State.resetOf, readByte, memLookup]

end Sys2Proof.Machine
end

section
/-! The pointer registers (R38, R39, R240, R241) and the read-out of trace memory (R74, R238, R248). -/

namespace Sys2Proof.Machine

/-! ### The bits of a pointer -/

/-- The writable bits of a pointer are n:3. -/
theorem getLsbD_addressMask {p : Config.Params} (low : 2 ≤ p.topBit) (high : p.topBit ≤ 30) (k : Nat) :
    (addressMask p).getLsbD k = decide (3 ≤ k ∧ k ≤ p.topBit) := by
  obtain ⟨n, top⟩ : ∃ n, p.topBit = n + 2 := ⟨p.topBit - 2, by omega⟩
  have shifted : 2 ^ (p.topBit + 1) - 8 = (2 ^ n - 1) * 2 ^ 3 := by
    rw [top, Nat.pow_add, Nat.pow_add]
    omega
  rw [addressMask, BitVec.getLsbD_ofNat, shifted, Nat.testBit_mul_two_pow, Nat.testBit_two_pow_sub_one]
  by_cases inField : 3 ≤ k ∧ k ≤ p.topBit
  · simp [inField]
    omega
  · simp [inField]
    omega

/-- An aligned address below the top of trace memory has bits n:3 only. -/
theorem PointerOk.getLsbD {p : Config.Params} {a : Word} (h : PointerOk p a) (wf : p.wf = true) {k : Nat}
    (outside : ¬ (3 ≤ k ∧ k ≤ p.topBit)) : a.getLsbD k = false := by
  obtain ⟨aligned, inRange⟩ := h
  obtain ⟨-, -, -, size⟩ := wf_traceMemory wf
  by_cases above : p.topBit < k
  case pos =>
    have small : a.toNat < 2 ^ k := (inRange.trans_le size).trans_le (Nat.pow_le_pow_right (by decide) above)
    exact Nat.testBit_lt_two_pow small
  case neg =>
    obtain ⟨b, eq⟩ : ∃ b, a.toNat = b * 2 ^ 3 := ⟨a.toNat / 8, by omega⟩
    have low : ¬ 3 ≤ k := by omega
    rw [BitVec.getLsbD, eq, Nat.testBit_mul_two_pow]
    simp [low]

/-- A pointer is what the writable bits of itself are, and of itself with Wrap above it (R39). -/
theorem PointerOk.masked {p : Config.Params} {a : Word} (h : PointerOk p a) (wf : p.wf = true) (wrap : Bool) :
    (a ||| (BitVec.ofBool wrap ++ 0#31)) &&& addressMask p = a := by
  obtain ⟨-, low, high, -⟩ := wf_traceMemory wf
  refine BitVec.eq_of_getLsbD_eq fun k hk => ?_
  rw [BitVec.getLsbD_and, BitVec.getLsbD_or, getLsbD_addressMask low high, BitVec.getLsbD_append]
  by_cases inField : 3 ≤ k ∧ k ≤ p.topBit
  · have below : k < 31 := by omega
    simp [inField, below]
  · simp [inField, h.getLsbD wf inField]

theorem PointerOk.and_addressMask {p : Config.Params} {a : Word} (h : PointerOk p a) (wf : p.wf = true) :
    a &&& addressMask p = a := by
  simpa using h.masked wf false

/-! ### Pointer accesses -/

theorem regRead_wrp {s : State} (hasOnchip : s.params.hasOnchip = true) :
    regRead 0x3F90 .word s = .next { s with readData := (wrpValue s).setWidth 64 } :=
  regRead_word_eq_readWord32 (r := .itcbwrp) rfl fun _ => hasOnchip

theorem regWrite_rdp {s : State} (hasOnchip : s.params.hasOnchip = true) (d : Config.Draws) (v : BitVec 64) :
    regWrite d 0x3F88 .word v s = writeRdp (v.setWidth 32) s :=
  regWrite_word_eq_writeWord32 (r := .itcbrdp) rfl fun _ => hasOnchip

/-- Wrap stands above the bits of a pointer, so that the value read is a sum (R39, R241). -/
theorem or_wrap_eq_add {a : Word} (below : a.getLsbD 31 = false) (wrap : Bool) :
    a ||| (BitVec.ofBool wrap ++ 0#31) = if wrap then a + 0x80000000#32 else a := by
  cases wrap with
  | false => simp
  | true =>
    have top : ∀ k : Fin 32, (0x80000000#32).getLsbD k = decide (k.val = 31) := by decide
    have apart : a &&& 0x80000000#32 = 0#32 := by
      refine BitVec.eq_of_getLsbD_eq fun k hk => ?_
      rw [BitVec.getLsbD_and, top ⟨k, hk⟩, BitVec.getLsbD_zero]
      by_cases h : k = 31
      · subst h
        rw [below, Bool.false_and]
      · simp [h]
    exact (BitVec.add_eq_or_of_and_eq_zero a _ apart).symm

/-- Settles O34: `a` is the masked value, which is taken where it names a word; Wrap stands above it in the value read. -/
theorem pointerWrites : Obligations.PointerWrites := by
  intro d s v a hasOnchip bits low high
  have masked : v.setWidth 32 &&& addressMask s.params = a := by
    refine BitVec.eq_of_getLsbD_eq fun k hk => ?_
    rw [BitVec.getLsbD_and, getLsbD_addressMask low high, BitVec.getLsbD_setWidth, bits k]
    simp [hk, Bool.and_comm]
  have wrp : regWrite d 0x3F90 .word v s = writeWrp (v.setWidth 32) s :=
    regWrite_word_eq_writeWord32 (r := .itcbwrp) rfl fun _ => hasOnchip
  rw [regWrite_rdp hasOnchip, wrp, writeRdp, writeWrp, masked]
  constructor
  case left =>
    intro inRange
    have isWord : inTraceMemory s.params a = true := decide_eq_true inRange
    have wrap : (v.setWidth 32).getLsbD 31 = v.getLsbD 31 := by simp
    have below : a.getLsbD 31 = false := by
      rw [bits 31, decide_eq_false (by omega), Bool.false_and]
    rw [if_pos isWord, if_pos isWord, wrap]
    refine ⟨rfl, regRead_word_eq_readWord32 (r := .itcbrdp) rfl fun _ => hasOnchip, rfl, ?_⟩
    rw [← or_wrap_eq_add below]
    exact regRead_wrp (s := { s with wrpAddr := a, wrpWrap := v.getLsbD 31 }) hasOnchip
  case right =>
    intro beyond
    have noWord : inTraceMemory s.params a = false := decide_eq_false (by omega)
    rw [if_neg (by simp [noWord]), if_neg (by simp [noWord])]
    exact ⟨rfl, rfl⟩

/-! ### Reading trace words in turn -/

/-- A pointer's next word, counted around trace memory (R64). -/
theorem PointerOk.advance_toNat {p : Config.Params} {a : Word} (h : PointerOk p a) (wf : p.wf = true) :
    (Machine.advance p a).toNat = (a.toNat + 8) % (8 * p.tmemWords) := by
  obtain ⟨aligned, inRange⟩ := h
  have size := wf_size_lt wf
  by_cases top : a.toNat = tmemTop p
  case pos =>
    have wraps : a.toNat + 8 = 8 * p.tmemWords := by rw [tmemTop] at top; omega
    rw [Machine.advance, if_pos top, wraps, Nat.mod_self]
    rfl
  case neg =>
    have next : (a + 8#32).toNat = a.toNat + 8 := by
      rw [BitVec.toNat_add, BitVec.toNat_ofNat]
      omega
    rw [Machine.advance, if_neg top, next, Nat.mod_eq_of_lt]
    rw [tmemTop] at top
    omega

/-- Only the value read and the read pointer differ. -/
def SameButRead (s t : State) : Prop :=
  t = { s with rdpAddr := t.rdpAddr, readData := t.readData }

theorem SameButRead.trans {s t u : State} (st : SameButRead s t) (tu : SameButRead t u) : SameButRead s u := by
  rw [SameButRead] at st tu ⊢
  rw [tu, st]

theorem SameButRead.readWord {s t : State} (h : SameButRead s t) (a : Nat) : readWord t a = readWord s a := by
  rw [h]
  rfl

/-- The state after both halves of the word at ITCBRDP were read (R236, R237). -/
def afterPair (s : State) : State :=
  { advanceRead s with readData := ((readWord s s.rdpAddr.toNat).extractLsb' 0 32).setWidth 64 }

theorem afterPair_same (s : State) : SameButRead s (afterPair s) := rfl

theorem afterPair_rdpAddr (s : State) : (afterPair s).rdpAddr = Machine.advance s.params s.rdpAddr := rfl

/-- The `n` words from the read pointer on, around trace memory (R236, R248). -/
theorem gatherWords_eq (n : Nat) (s : State) (wf : s.params.wf = true) (pointer : PointerOk s.params s.rdpAddr)
    (hasOnchip : s.params.hasOnchip = true) (onChip : s.ifctl.ofc = false) :
    ∃ t, SameButRead s t ∧ gatherWords n s = some
      ((List.range n).map fun k => readWord s ((s.rdpAddr.toNat + 8 * k) % (8 * s.params.tmemWords)), t) := by
  induction n generalizing s with
  | zero => exact ⟨s, rfl, rfl⟩
  | succ n ih =>
    have pair : readPair s = some (readWord s s.rdpAddr.toNat, afterPair s) :=
      readPair_eq s hasOnchip onChip pointer.inTraceMemory
    obtain ⟨t, rest, gathered⟩ := ih (afterPair s) wf (pointer.advance wf) hasOnchip onChip
    refine ⟨t, (afterPair_same s).trans rest, ?_⟩
    have tail : ∀ k, readWord (afterPair s) (((afterPair s).rdpAddr.toNat + 8 * k) % (8 * (afterPair s).params.tmemWords)) =
        readWord s ((s.rdpAddr.toNat + 8 * (k + 1)) % (8 * s.params.tmemWords)) := fun k => by
      rw [(afterPair_same s).readWord, afterPair_rdpAddr, pointer.advance_toNat wf]
      exact congrArg (readWord s) ((Nat.mod_add_mod ..).trans (by rw [Nat.mul_add, Nat.add_assoc, Nat.add_comm 8]))
    have head : readWord s s.rdpAddr.toNat = readWord s ((s.rdpAddr.toNat + 8 * 0) % (8 * s.params.tmemWords)) := by
      rw [Nat.mul_zero, Nat.add_zero, Nat.mod_eq_of_lt pointer.2]
    simp only [gatherWords, pair, gathered, tail, List.range_succ_eq_map, List.map_cons, List.map_map, ← head]
    rfl

/-! ### The read-out -/

section
variable {s : State} (good : GoodState s)
include good

theorem GoodState.wrpValue_wrap : (wrpValue s).getLsbD 31 = s.wrpWrap := by
  have high := (wf_traceMemory good.params).2.2.1
  rw [wrpValue, BitVec.getLsbD_or, good.writePointer.getLsbD good.params (by omega), BitVec.getLsbD_append]
  simp

theorem GoodState.readOutStart_eq : readOutStart s.params (wrpValue s) = if s.wrpWrap then s.wrpAddr else 0#32 := by
  rw [readOutStart, good.wrpValue_wrap, wrpValue, good.writePointer.masked good.params]

theorem GoodState.readOutCount_eq :
    readOutCount s.params (wrpValue s) = if s.wrpWrap then s.params.tmemWords else s.wrpAddr.toNat / 8 := by
  rw [readOutCount, good.wrpValue_wrap, wrpValue, good.writePointer.masked good.params]

/-- The read-out gathers its words from its start on, wherever that is. -/
theorem GoodState.readOutTrace_eq (d : Config.Draws) (hasOnchip : s.params.hasOnchip = true) (onChip : s.ifctl.ofc = false) :
    ∃ t, SameButRead s t ∧ readOutTrace d s = some
      ((List.range (readOutCount s.params (wrpValue s))).map fun k =>
        readWord s (((readOutStart s.params (wrpValue s)).toNat + 8 * k) % (8 * s.params.tmemWords)), t) := by
  have start : PointerOk s.params (readOutStart s.params (wrpValue s)) := by
    rw [good.readOutStart_eq]
    split
    · exact good.writePointer
    · exact pointerOk_zero good.params
  generalize hstart : readOutStart s.params (wrpValue s) = a at start ⊢
  have written : ∀ v : BitVec 64, Machine.regWrite d 0x3F88 .word (a.setWidth 64) { s with readData := v } =
      .next { s with readData := v, rdpAddr := a } := fun v => by
    have same : (a.setWidth 64).setWidth 32 = a := by simp
    rw [regWrite_rdp (s := { s with readData := v }) hasOnchip, same, Machine.writeRdp, start.and_addressMask good.params,
      if_pos start.inTraceMemory]
  have value : ((wrpValue s).setWidth 64).setWidth 32 = wrpValue s := by simp
  obtain ⟨t, same, gathered⟩ := gatherWords_eq (readOutCount s.params (wrpValue s))
    { s with readData := (wrpValue s).setWidth 64, rdpAddr := a } good.params start hasOnchip onChip
  refine ⟨t, SameButRead.trans (t := { s with readData := (wrpValue s).setWidth 64, rdpAddr := a }) rfl same, ?_⟩
  rw [readOutTrace, regRead_wrp hasOnchip]
  simp only [nextState, value, hstart, written, gathered]
  rfl

end

/-- Settles O32: the 64-bit read answers the whole word, and the read-out gathers the words from its start on. -/
theorem readOutReturnsTraceMemory : Obligations.ReadOutReturnsTraceMemory := by
  constructor
  case left =>
    intro s hasOnchip wide onChip inRange
    have decoded : regRead 0x3F80 .double s = readWord64 .itcbtwLow s := by
      simp [regRead, drsegReg, hasOnchip, readRegister]
    rw [decoded, readWord64, if_pos wide, readTraceWord_eq_returns id advanceRead onChip inRange]
    rfl
  case right =>
    intro d s good off hasOnchip onChip
    obtain ⟨t, same, gathered⟩ := good.readOutTrace_eq d hasOnchip onChip
    refine ⟨t, same, ?_⟩
    rw [gathered, good.readOutStart_eq, good.readOutCount_eq]
    cases wrap : s.wrpWrap with
    | true => rfl
    | false =>
      have inRange := good.writePointer.2
      refine congrArg (fun ws => some (ws, t)) (List.map_congr_left fun k hk => ?_)
      have below : k < s.wrpAddr.toNat / 8 := List.mem_range.mp hk
      rw [if_neg (by simp), BitVec.toNat_zero, Nat.zero_add, Nat.mod_eq_of_lt (by omega)]

end Sys2Proof.Machine
end

section
/-! Operand fields (R106 to R108) and the synchronization count (R141). -/

namespace Sys2Proof.Machine

/-! ### Offsets and PCs -/

/-- A field without bit 0, and the zero it stands for, are the bits of an even value. -/
theorem field_append_zero {m : Nat} (d : BitVec m) (n : Nat) (even : d.getLsbD 0 = false) :
    (d.extractLsb' 1 n ++ 0#1 : BitVec (n + 1)) = d.extractLsb' 0 (n + 1) := by
  refine BitVec.eq_of_getLsbD_eq fun k hk => ?_
  rw [BitVec.getLsbD_append, BitVec.getLsbD_extractLsb', BitVec.getLsbD_extractLsb']
  cases k with
  | zero => simp [even]
  | succ k =>
    have inField : k < n := by omega
    simp [inField, Nat.add_comm 1]

theorem offset8_delta8 {d : Word} (fits : fits8 d = true) : offset8 (delta8 d) = d := by
  simp only [fits8, Bool.and_eq_true, beq_iff_eq, Bool.not_eq_true'] at fits
  rw [offset8, delta8, field_append_zero d 8 fits.2, fits.1]

theorem offset16_delta16 {d : Word} (fits : fits16 d = true) : offset16 (delta16 d) = d := by
  simp only [fits16, Bool.and_eq_true, beq_iff_eq, Bool.not_eq_true'] at fits
  rw [offset16, delta16, field_append_zero d 16 fits.2, fits.1]

theorem fieldPc_pcField {pc : Word} (even : pc.getLsbD 0 = false) : fieldPc (pcField pc) = pc := by
  rw [fieldPc, pcField, field_append_zero pc 31 even, BitVec.extractLsb'_eq_self]

/-! ### The S.FD data field (R108) -/

theorem popCount4_lt_four {be : BitVec 4} (part : be ≠ 15#4) : popCount4 be < 4 := by
  have every : ∀ be : BitVec 4, be ≠ 15#4 → popCount4 be < 4 := by decide
  exact every be part

theorem dataField_part {be : BitVec 4} (part : be ≠ 15#4) (data : Word) :
    dataField be data = be ++ BitVec.ofNat 28 (data.toNat % 2 ^ (8 * popCount4 be)) := by
  rw [dataField, if_neg (by simpa [fullWord] using part)]

/-- The selected bytes have at most 24 bits, so the field holds them whole. -/
theorem selected_lt {be : BitVec 4} (part : be ≠ 15#4) (data : Word) :
    data.toNat % 2 ^ (8 * popCount4 be) < 2 ^ (8 * popCount4 be) ∧ 2 ^ (8 * popCount4 be) ≤ 2 ^ 24 := by
  have bytes := popCount4_lt_four part
  exact ⟨Nat.mod_lt _ (Nat.two_pow_pos _), Nat.pow_le_pow_right (by decide) (by omega)⟩

theorem fieldEnables_dataField {be : BitVec 4} (part : be ≠ 15#4) (data : Word) : fieldEnables false (dataField be data) = be := by
  rw [dataField_part part, fieldEnables, if_neg (by simp), BitVec.extractLsb'_append_eq_left]

theorem fieldValue_dataField {be : BitVec 4} (part : be ≠ 15#4) (data : Word) :
    (fieldValue false (dataField be data)).toNat = data.toNat % 2 ^ (8 * popCount4 be) := by
  obtain ⟨below, small⟩ := selected_lt part data
  rw [dataField_part part, fieldValue, if_neg (by simp), BitVec.extractLsb'_append_eq_of_add_le (by decide),
    BitVec.toNat_setWidth_of_le (by decide), BitVec.extractLsb'_toNat, BitVec.toNat_ofNat, Nat.shiftRight_zero,
    Nat.mod_eq_of_lt (show _ < 2 ^ 28 by omega), Nat.mod_eq_of_lt (by omega)]

theorem fieldLaidOut_dataField (be : BitVec 4) (data : Word) : fieldLaidOut (fullWord be) (dataField be data) = true := by
  by_cases part : be = 15#4
  case pos => simp [fieldLaidOut, fullWord, part]
  case neg =>
    obtain ⟨below, small⟩ := selected_lt part data
    have low : (BitVec.ofNat 28 (data.toNat % 2 ^ (8 * popCount4 be))).toNat < 2 ^ (8 * popCount4 be) := by
      rwa [BitVec.toNat_ofNat, Nat.mod_eq_of_lt (show _ < 2 ^ 28 by omega)]
    rw [fieldLaidOut, dataField_part part, BitVec.extractLsb'_append_eq_left, BitVec.extractLsb'_append_eq_right]
    simp only [popCount4_lt_four part, low, decide_true, Bool.and_self, Bool.or_true]

/-- Settles O39: an offset that fits is the difference, and each part of the data field lies apart from the other. -/
theorem operandFieldsGiveValuesBack : Obligations.OperandFieldsGiveValuesBack := by
  refine ⟨fun pc lastPc fits => ?_, fun pc lastPc fits => ?_, fun pc even => fieldPc_pcField even, fun data => ⟨rfl, rfl⟩,
    fun be data part => ⟨fieldEnables_dataField part data, fieldValue_dataField part data, ?_⟩⟩
  · rw [offset8_delta8 fits, add_sub_cancel]
  · rw [offset16_delta16 fits, add_sub_cancel]
  · have notFull : fullWord be = false := by simpa [fullWord] using part
    rw [← notFull]
    exact fieldLaidOut_dataField be data

/-! ### The synchronization count -/

/-- One instruction counted: a synchronization is due at 1 (and at 0), and the period follows (R141). -/
theorem syncStep_eq (s : State) : syncStep s =
    (decide (s.syncCtr ≤ 1), { s with syncCtr := if s.syncCtr ≤ 1 then syncPeriod s.ifctl else s.syncCtr - 1 }) := by
  unfold syncStep
  split
  · have due : s.syncCtr ≤ 1 := by omega
    simp [due]
  · have notDue : ¬ s.syncCtr ≤ 1 := by omega
    simp [notDue]

/-- Before the count is down, each step takes one off. -/
theorem syncStep_iterate {n : Nat} {s : State} (count : s.syncCtr = n + 1) {k : Nat} (before : k ≤ n) :
    (fun x => (syncStep x).2)^[k] s = { s with syncCtr := n + 1 - k } := by
  induction k with
  | zero => simp [← count]
  | succ k ih =>
    have notDue : ¬ n + 1 - k ≤ 1 := by omega
    rw [Function.iterate_succ_apply', ih (by omega), syncStep_eq]
    simp [notDue]
    omega

/-- Settles O40: `n` steps leave 1 in the counter, and the next one is due. -/
theorem syncComesAfterCount : Obligations.SyncComesAfterCount := by
  intro n s count
  refine ⟨fun k before => ?_, ?_, ?_⟩
  · have notDue : ¬ n + 1 - k ≤ 1 := by omega
    rw [syncStep_iterate count before.le, syncStep_eq]
    simp [notDue]
  · rw [syncStep_iterate count le_rfl, syncStep_eq]
    simp
  · rw [syncStep_iterate count le_rfl, syncStep_eq]
    simp [syncPeriod]

end Sys2Proof.Machine
end

section
/-! Normal mode: the message of an instruction, triggers, and the start of tracing (R133 to R143, R201, R262). -/

namespace Sys2Proof.Machine

/-! ### Trigger sets -/

theorem members_zero : members 0#15 = [] := by decide

theorem members_single {b : Nat} (present : b < 15) : members (BitVec.ofNat 15 (2 ^ b)) = [b] := by
  have every : ∀ b : Fin 15, members (BitVec.ofNat 15 (2 ^ b.val)) = [b.val] := by decide
  exact every ⟨b, present⟩

theorem single_ne_zero {b : Nat} (present : b < 15) : BitVec.ofNat 15 (2 ^ b) ≠ 0#15 := by
  intro zero
  have single := members_single present
  rw [zero, members_zero] at single
  cases single

/-- A breakpoint that exists passes an open gate. -/
theorem gated_single {r : TrigReg} {n b : Nat} (present : b < n) (few : n ≤ 15) (gate : r.gate = true) :
    gated r n (BitVec.ofNat 15 (2 ^ b)) = BitVec.ofNat 15 (2 ^ b) := by
  have every : ∀ n : Fin 16, ∀ b : Fin 15, b.val < n.val →
      BitVec.ofNat 15 (2 ^ b.val) &&& implemented n = BitVec.ofNat 15 (2 ^ b.val) := by decide
  rw [gated, if_pos gate]
  exact every ⟨n, by omega⟩ ⟨b, by omega⟩ present

theorem gated_zero (r : TrigReg) (n : Nat) : gated r n 0#15 = 0#15 := by
  cases gate : r.gate <;> simp [gated, gate]

theorem gated_closed {r : TrigReg} (closed : r.gate = false) (n : Nat) (b : BitVec 15) : gated r n b = 0#15 := by
  simp [gated, closed]

theorem instrTriggers_single {i : Retired} {s : State} {b : Nat} (present : b < s.params.nIbrk) (few : s.params.nIbrk ≤ 15)
    (gate : s.itrig.gate = true) (single : i.ibp = BitVec.ofNat 15 (2 ^ b)) : instrTriggers s i = BitVec.ofNat 15 (2 ^ b) := by
  rw [instrTriggers, single, gated_single present few gate]

theorem dataTriggers_of_noAccess {i : Retired} (s : State) (noAccess : i.mem = none) : dataTriggers s i = 0#15 := by
  rw [dataTriggers, dataMatches, noAccess, gated_zero]

theorem triggerValues_zero (brk : BitVec 15) : triggerValues 0#15 brk = [] := by
  rw [triggerValues, members_zero, List.map_nil]

theorem triggerBefore_of_none {d : Config.Draws} {i : Retired} {s : State} (noInstr : instrTriggers s i = 0#15)
    (noData : dataTriggers s i = 0#15) : triggerBefore d i s = none := by
  simp [triggerBefore, noInstr, noData, triggerValues_zero, resolveTriggers]

theorem triggerAfter_of_none {d : Config.Draws} {i : Retired} {s : State} (noInstr : instrTriggers s i = 0#15)
    (noData : dataTriggers s i = 0#15) : triggerAfter d i s = none := by
  simp [triggerAfter, noInstr, noData, triggerValues_zero, resolveTriggers]

/-- A single instruction trigger drawn to act before its instruction gives its value then, and nothing behind it. -/
theorem trigger_of_single {d : Config.Draws} {i : Retired} {s : State} {b : Nat} (present : b < s.params.nIbrk)
    (few : s.params.nIbrk ≤ 15) (gate : s.itrig.gate = true) (single : i.ibp = BitVec.ofNat 15 (2 ^ b)) (noAccess : i.mem = none)
    (before : d.afterI = 0#15) :
    triggerBefore d i s = some (s.itrig.brk.getLsbD b) ∧ triggerAfter d i s = none := by
  have values : triggerValues (BitVec.ofNat 15 (2 ^ b)) s.itrig.brk = [s.itrig.brk.getLsbD b] := by
    rw [triggerValues, members_single (by omega), List.map_singleton]
  have all : BitVec.ofNat 15 (2 ^ b) &&& ~~~0#15 = BitVec.ofNat 15 (2 ^ b) := by
    rw [BitVec.not_zero, BitVec.and_allOnes]
  rw [triggerBefore, triggerAfter, instrTriggers_single present few gate single, dataTriggers_of_noAccess s noAccess, before, all,
    values]
  cases s.itrig.brk.getLsbD b <;> simp [triggerValues_zero, resolveTriggers]

/-! ### An instruction in normal mode -/

theorem inTraceOn_iff (s : State) : inTraceOn s = true ↔ s.ifctl.on = true ∧ s.ifctl.en = true ∧ s.debugMode = false := by
  simp [inTraceOn, and_assoc]

/-- In normal mode an instruction is offered behind the triggers that act before it, and those behind it are latched (D31). -/
theorem retire_normal {d : Config.Draws} {i : Retired} {s : State} (on : s.ifctl.on = true) (running : s.debugMode = false)
    (normal : s.ifctl.est = false) : retire d i s =
      offerNormal d i { applyTrigger? d (triggerBefore d i s) s with latchedEn := triggerAfter d i s } := by
  simp [retire, on, running, normal]

theorem offerNormal_traced {d : Config.Draws} {i : Retired} {s : State} (traceOn : inTraceOn s = true)
    (predictable : unpredictable s.ifctl = false) : offerNormal d i s = .next (traceNormal d i s) := by
  simp [offerNormal, traceOn, predictable]

theorem offerNormal_off {d : Config.Draws} {i : Retired} {s : State} (traceOff : inTraceOn s = false) :
    offerNormal d i s = .next s := by
  simp [offerNormal, traceOff]

/-- A traced instruction puts its messages on the bus, becomes the current one, and is counted. -/
theorem traceNormal_eq (d : Config.Draws) (i : Retired) (s : State) : traceNormal d i s = { s with
    bus := s.bus ++ (startResume d s ++ [normalMessage d (decide (s.syncCtr ≤ 1)) i s])
    curPc := i.pc, curNcc := i.ncc
    syncCtr := if s.syncCtr ≤ 1 then syncPeriod s.ifctl else s.syncCtr - 1 } := by
  rw [traceNormal, syncStep_eq]
  rfl

theorem fullPcDue_iff (i : Retired) (s : State) : fullPcDue (decide (s.syncCtr ≤ 1)) i s = true ↔
    s.needFullPc = true ∨ s.discont = true ∨ i.ncc ≠ s.lastNcc ∨ s.syncCtr ≤ 1 := by
  simp only [fullPcDue, Bool.or_eq_true, bne_iff_ne, decide_eq_true_eq]
  tauto

theorem startResume_cases (d : Config.Draws) (s : State) :
    startResume d s = [] ∨ (s.needFullPc = true ∧ s.discont = false ∧ startResume d s = [.nRes]) := by
  unfold startResume
  split
  · rename_i start
    simp only [Bool.and_eq_true, Bool.not_eq_true'] at start
    exact .inr ⟨start.1.1, start.1.2, rfl⟩
  · exact .inl rfl

theorem dynamicMessage_cases (d : Config.Draws) (pc lastPc : Word) (ncc : Bool) :
    dynamicMessage d pc lastPc ncc = .nFpc (pcField pc) ncc ∨
    (fits16 (pc - lastPc) = true ∧ dynamicMessage d pc lastPc ncc = .nJ16 (delta16 (pc - lastPc))) ∨
    (fits8 (pc - lastPc) = true ∧ dynamicMessage d pc lastPc ncc = .nJ8 (delta8 (pc - lastPc))) := by
  unfold dynamicMessage pcDelta
  split_ifs with short long
  · exact .inr (.inr ⟨(Bool.and_eq_true _ _ ▸ short).1, rfl⟩)
  · exact .inr (.inl ⟨(Bool.and_eq_true _ _ ▸ long).1, rfl⟩)
  · exact .inl rfl

/-- Settles O38: without triggers the instruction is traced as it is, and its message follows the tests of R139. -/
theorem normalModeMessageChoice : Obligations.NormalModeMessageChoice := by
  intro d i s traceOn normal predictable noInstr noData
  obtain ⟨on, -, running⟩ := (inTraceOn_iff s).mp traceOn
  have traced : retire d i s = .next (traceNormal d i { s with latchedEn := none }) := by
    rw [retire_normal on running normal, triggerBefore_of_none noInstr noData, triggerAfter_of_none noInstr noData]
    exact offerNormal_traced traceOn predictable
  rw [traceNormal_eq] at traced
  refine ⟨_, _, traced, rfl, rfl, rfl, ?_, rfl⟩
  have resume := startResume_cases d { s with latchedEn := none }
  by_cases due : s.needFullPc = true ∨ s.discont = true ∨ i.ncc ≠ s.lastNcc ∨ s.syncCtr ≤ 1
  case pos =>
    have message : normalMessage d (decide (s.syncCtr ≤ 1)) i { s with latchedEn := none } = .nFpc (pcField i.pc) i.ncc :=
      if_pos ((fullPcDue_iff i { s with latchedEn := none }).mpr due)
    rw [if_pos due, message]
    rcases resume with none | ⟨start, continuous, some⟩
    · exact .inl (by rw [none]; rfl)
    · exact .inr ⟨start, continuous, by rw [some]; rfl⟩
  case neg =>
    have message : normalMessage d (decide (s.syncCtr ≤ 1)) i { s with latchedEn := none } = flowMessage d i s.lastPc :=
      if_neg fun h => due ((fullPcDue_iff i { s with latchedEn := none }).mp h)
    have noResume : startResume d { s with latchedEn := none } = [] :=
      resume.resolve_right fun h => due (.inl h.1)
    rw [if_neg due, message, noResume]
    cases flow : i.flow with
    | seq => simp [flowMessage, flow]
    | takenStatic => simp [flowMessage, flow]
    | dynamic => simpa [flowMessage, flow] using dynamicMessage_cases d i.pc s.lastPc i.ncc

/-! ### A rise of In_TraceOn -/

/-- What a start of tracing leaves: a full PC due, the counters in their ranges (R143, R201, D9, D12). -/
def Started (s t : State) : Prop :=
  t.needFullPc = true ∧ 1 ≤ t.syncCtr ∧ t.syncCtr ≤ 2 ^ (s.ifctl.syp.toNat + 8) ∧ t.dcyc.toNat ≤ 1022

theorem traceStart_started (d : Config.Draws) (s : State) : Started s (traceStart d s) := by
  have phase := Nat.mod_lt d.syncPhase (Nat.two_pow_pos (s.ifctl.syp.toNat + 8))
  have cycles := Nat.mod_lt d.dcycPhase (show 1023 > 0 by decide)
  refine ⟨rfl, ?_, ?_, ?_⟩
  · exact Nat.le_add_right 1 _
  · rw [traceStart_syncCtr, syncPeriod]
    omega
  · rw [traceStart_dcyc, BitVec.toNat_ofNat]
    omega

theorem reevaluate_rise {d : Config.Draws} {was : Bool} {s : State} (off : was = false) (on : inTraceOn s = true) :
    reevaluate d was s = traceStart d s := by
  simp [reevaluate, off, on]

theorem inTraceOn_of_debugMode {s : State} (debug : s.debugMode = true) : inTraceOn s = false := by
  simp [inTraceOn, debug]

theorem inTraceOn_of_en {s : State} (off : s.ifctl.en = false) : inTraceOn s = false := by
  simp [inTraceOn, off]

/-- A trigger that switches tracing on starts it, behind a discontinuity (R262, R268). -/
theorem applyTrigger_start {d : Config.Draws} {s : State} (on : s.ifctl.on = true) (running : s.debugMode = false)
    (off : s.ifctl.en = false) : applyTrigger d true s = traceStart d (setEn true { s with discont := true }) := by
  rw [applyTrigger, if_neg (by simp [off])]
  exact reevaluate_rise (inTraceOn_of_en off) ((inTraceOn_iff _).mpr ⟨on, rfl, running⟩)

/-- A start trigger's instruction is sent as a full PC, the start still due for the message after it (R143, log 4). -/
theorem traceNormal_started {d : Config.Draws} {i : Retired} {s t : State} (started : Started s t) (discont : t.discont = true)
    (ifctl : t.ifctl.syp = s.ifctl.syp) :
    (traceNormal d i t).bus = t.bus ++ [.nFpc (pcField i.pc) i.ncc] ∧ Started s (traceNormal d i t) := by
  obtain ⟨need, least, most, cycles⟩ := started
  have message : normalMessage d (decide (t.syncCtr ≤ 1)) i t = .nFpc (pcField i.pc) i.ncc :=
    if_pos ((fullPcDue_iff i t).mpr (.inl need))
  have noResume : startResume d t = [] := (startResume_cases d t).resolve_right fun h => by simp [discont] at h
  rw [traceNormal_eq, message, noResume]
  refine ⟨rfl, need, ?_, ?_, cycles⟩
  all_goals
    have positive := Nat.two_pow_pos (s.ifctl.syp.toNat + 8)
    simp only [syncPeriod, ifctl]
    split <;> omega

/-- Settles O41: each of the four events makes In_TraceOn rise, and a rise starts the trace. -/
theorem traceOnAsksForFullPc : Obligations.TraceOnAsksForFullPc := by
  intro d s
  refine ⟨fun debug on en => ?leave, fun running was v on en noChange => ?write, fun running on off => ?latched,
    fun i b present few running on off normal predictable gate value single noAccess before => ?before⟩
  case leave =>
    have isOn : inTraceOn { s with debugMode := false } = true := (inTraceOn_iff _).mpr ⟨on, en, rfl⟩
    have rise : debugLeave d s = traceStart d { s with debugMode := false } :=
      reevaluate_rise (inTraceOn_of_debugMode debug) isOn
    obtain ⟨need, least, most, cycles⟩ := traceStart_started d { s with debugMode := false }
    exact ⟨_, congrArg Host.Outcome.next rise, isOn, need, least, most, cycles, rfl, rfl⟩
  case write =>
    obtain ⟨on', en', -, -, syp⟩ := ifctlWritten_controls s.params v s.ifctl
    have taken := writeIfctl_taken (d := d) noChange (by simp [stops, on', on])
    rw [← regWrite_ifctl] at taken
    generalize ifctlWritten s.params (v.setWidth 32) s.ifctl = r at on' en' syp taken
    have isOn : inTraceOn (withIfctl r s) = true := (inTraceOn_iff _).mpr ⟨on'.trans on, en'.trans en, running⟩
    rw [reevaluate_rise was isOn] at taken
    obtain ⟨need, least, most, cycles⟩ := traceStart_started d (withIfctl r s)
    exact ⟨_, taken, isOn, need, least, syp ▸ most, cycles, rfl, rfl⟩
  case latched =>
    have start : applyLatched d true s = traceStart d (setEn true { s with latchedEn := none, discont := true }) :=
      applyTrigger_start (s := { s with latchedEn := none }) on running off
    obtain ⟨need, least, most, cycles⟩ := traceStart_started d (setEn true { s with latchedEn := none, discont := true })
    rw [start]
    exact ⟨(inTraceOn_iff _).mpr ⟨on, rfl, running⟩, need, least, most, cycles, rfl, rfl, rfl⟩
  case before =>
    obtain ⟨triggered, nothingBehind⟩ := trigger_of_single present few gate single noAccess before
    have start := applyTrigger_start (d := d) on running off
    have started : Started s { traceStart d (setEn true { s with discont := true }) with latchedEn := none } :=
      traceStart_started d (setEn true { s with discont := true })
    obtain ⟨bus, need, least, most, cycles⟩ := traceNormal_started (d := d) (i := i) started rfl rfl
    have isOn : inTraceOn { traceStart d (setEn true { s with discont := true }) with latchedEn := none } = true :=
      (inTraceOn_iff _).mpr ⟨on, rfl, running⟩
    have run : retire d i s =
        .next (traceNormal d i { traceStart d (setEn true { s with discont := true }) with latchedEn := none }) := by
      rw [retire_normal on running normal, triggered, nothingBehind, value, applyTrigger?, start]
      exact offerNormal_traced isOn predictable
    rw [traceNormal_eq] at run bus need least most cycles
    exact ⟨_, run, isOn, bus, need, rfl, least, most, cycles, rfl⟩

/-- A trigger gives En its value and leaves the bus; a change leaves the mark of a discontinuity (R262, R268). -/
theorem applyTrigger_gives (d : Config.Draws) (b : Bool) (s : State) :
    (applyTrigger d b s).ifctl = { s.ifctl with en := b } ∧ (applyTrigger d b s).debugMode = s.debugMode ∧
      (applyTrigger d b s).bus = s.bus ∧ (b ≠ s.ifctl.en → (applyTrigger d b s).discont = true) ∧
      (b = s.ifctl.en → (applyTrigger d b s).discont = s.discont) := by
  rcases applyTrigger_cases d b s with ⟨same, eq⟩ | ⟨change, eq⟩
  · rw [eq, ← same]
    exact ⟨rfl, rfl, rfl, fun h => absurd rfl h, fun _ => rfl⟩
  · rw [eq, reevaluate_frame]
    exact ⟨rfl, rfl, rfl, fun _ => rfl, fun h => absurd h.symm change⟩

/-- Settles O48: the trigger gives En its value, and what is traced behind it leaves En and the mark alone. -/
theorem triggerSwitchesEnable : Obligations.TriggerSwitchesEnable := by
  intro d i s b present few on running normal predictable gate single noAccess before
  obtain ⟨triggered, nothingBehind⟩ := trigger_of_single present few gate single noAccess before
  have run := retire_normal (d := d) (i := i) on running normal
  rw [triggered, nothingBehind, applyTrigger?] at run
  generalize s.itrig.brk.getLsbD b = value at run ⊢
  obtain ⟨ifctl, debugMode, bus, changed, same⟩ := applyTrigger_gives d value s
  generalize applyTrigger d value s = t at run ifctl debugMode bus changed same
  have en : t.ifctl.en = value := by rw [ifctl]
  cases traced : inTraceOn { t with latchedEn := none } with
  | true =>
    have predictable' : unpredictable t.ifctl = false := by rw [ifctl]; exact predictable
    rw [offerNormal_traced traced predictable', traceNormal_eq] at run
    refine ⟨_, run, en, changed, same, fun off => ?_⟩
    have isOn := ((inTraceOn_iff _).mp traced).2.1
    exact absurd isOn (by simp [en, off])
  | false =>
    rw [offerNormal_off traced] at run
    exact ⟨_, run, en, changed, same, fun _ => bus⟩

end Sys2Proof.Machine
end

section
/-! Special mode: breakpoint matches, filtered data, flow events, user messages, cycles (R160 to R174, R261 to R264). -/

namespace Sys2Proof.Machine

/-! ### What special mode makes of an instruction -/

theorem generate_nil (s : State) : generate [] s = s := rfl

/-- One message generated: it carries the cycle count, which starts again (R162). -/
theorem generate_single (m : Instr) (s : State) :
    generate [m] s = { s with bus := s.bus ++ [setDelta (currentDelta s) m], dcyc := 0#10 } := rfl

theorem permute_nil (k : Nat) : permute k [] = [] := rfl

theorem permute_single (k : Nat) (m : Instr) : permute k [m] = [m] := rfl

theorem unpredictable_special {r : Ifctl} (special : r.est = true) (legal : r.illegal = false) : unpredictable r = false := by
  simp [unpredictable, special, legal]

section
variable {d : Config.Draws} {i : Retired} {s : State} (traceOn : inTraceOn s = true) (special : s.ifctl.est = true)
  (legal : s.ifctl.illegal = false)
include traceOn special legal

theorem retire_special : retire d i s = traceSpecial d i s := by
  obtain ⟨on, -, running⟩ := (inTraceOn_iff s).mp traceOn
  simp [retire, offerSpecial, on, running, special, traceOn, unpredictable_special special legal]

/-- Where no breakpoint with BE set and no wide filtered access matches, the records of the instruction are generated. -/
theorem retire_special_records (noBreak : breakEnableMatch i s = false) (narrow : wideMatch i s = false) :
    retire d i s = .next (generate (specialMessages d i s) s) := by
  rw [retire_special traceOn special legal, traceSpecial, if_neg (by simp [noBreak]), if_neg (by simp [narrow])]

end

/-! ### Breakpoints (R167 to R170) -/

theorem breakpointId_instr {b : Nat} (present : b < 15) : breakpointId (BitVec.ofNat 15 (2 ^ b)) 0#15 = BitVec.ofNat 4 b := by
  simp only [breakpointId, onlyMember, members_single present, members_zero, List.append_nil]

theorem breakpointId_data {b : Nat} (present : b < 15) : breakpointId 0#15 (BitVec.ofNat 15 (2 ^ b)) = BitVec.ofNat 4 b := by
  simp only [breakpointId, onlyMember, members_single present, members_zero, List.nil_append]

theorem instrBreakBit_instr {b : Nat} (present : b < 15) (draw : Bool) :
    instrBreakBit (BitVec.ofNat 15 (2 ^ b)) 0#15 draw = true := by
  rw [instrBreakBit, if_neg (by simpa using single_ne_zero present), if_pos (by simp)]

theorem dataMessages_of_noAccess {i : Retired} (s : State) (noAccess : i.mem = none) : dataMessages i s = [] := by
  rw [dataMessages, noAccess]

theorem wideMatch_of_noAccess {i : Retired} (s : State) (noAccess : i.mem = none) : wideMatch i s = false := by
  rw [wideMatch, noAccess]

theorem flowEventMessages_off {s : State} (noFcr : s.ifctl.fcr = false) (noEr : s.ifctl.er = false) (i : Retired) :
    flowEventMessages i s = [] := by
  simp [flowEventMessages, fceCall, fceExc, fceRet, noFcr, noEr]

theorem breakpointMessages_off {s : State} (noBm : s.ifctl.bm = false) (d : Config.Draws) (i : Retired) :
    breakpointMessages d i s = [] := by
  simp [breakpointMessages, noBm]

/-- Settles O42: the match is the only record, and it carries the number of its only breakpoint. -/
theorem breakpointMatchMessage : Obligations.BreakpointMatchMessage := by
  intro d i s b present few traceOn special legal bm noFcr noEr gate single noBe noAccess
  have below : b < 15 := by omega
  have instr := instrTriggers_single (i := i) present few gate single
  have data := dataTriggers_of_noAccess s noAccess
  have noBreak : breakEnableMatch i s = false := by simp [breakEnableMatch, noBe, data]
  have record : specialMessages d i s = [.sBm (BitVec.ofNat 4 b) true (pcField i.pc) i.ncc none] := by
    have matched : (s.ifctl.bm && (instrTriggers s i != 0#15 || dataTriggers s i != 0#15)) = true := by
      rw [bm, instr, bne_iff_ne.mpr (single_ne_zero below)]
      rfl
    rw [specialMessages, dataMessages_of_noAccess s noAccess, flowEventMessages_off noFcr noEr, breakpointMessages, if_pos matched,
      instr, data, breakpointId_instr below, instrBreakBit_instr below]
    rfl
  have run := retire_special_records (d := d) traceOn special legal noBreak (wideMatch_of_noAccess s noAccess)
  rw [record, generate_single] at run
  exact ⟨_, run, rfl, rfl⟩

/-- Settles O43: without a match with BE set the access is the only record; with one, in filtered data mode too, the run is refused. -/
theorem filteredDataMessage : Obligations.FilteredDataMessage := by
  intro d i m s b present few traceOn special legal fdt noBm noFcr noEr gate access single noBe narrow
  have below : b < 15 := by omega
  have data : dataTriggers s i = BitVec.ofNat 15 (2 ^ b) := by
    rw [dataTriggers, dataMatches, access]
    exact (congrArg _ single).trans (gated_single present few gate)
  have enables : dataBreakEnables i = 0#15 := by rw [dataBreakEnables, access]; exact noBe
  constructor
  case left =>
    intro noInstrBe
    have noBreak : breakEnableMatch i s = false := by simp [breakEnableMatch, noInstrBe, enables]
    have narrow' : wideMatch i s = false := by simp [wideMatch, access, narrow]
    have record : specialMessages d i s = [.sFd (BitVec.ofNat 4 b) m.load (m.be == 15#4) (m.addr.extractLsb' 2 6)
        (dataField m.be m.data) none] := by
      have matched : (s.ifctl.fdt && dataTriggers s i != 0#15) = true := by
        rw [fdt, data, bne_iff_ne.mpr (single_ne_zero below)]
        rfl
      rw [specialMessages, breakpointMessages_off noBm, flowEventMessages_off noFcr noEr, dataMessages, access]
      simp only [if_pos matched]
      rw [data, breakpointId_data below]
      rfl
    have run := retire_special_records (d := d) traceOn special legal noBreak narrow'
    rw [record, generate_single] at run
    exact ⟨_, run, rfl, rfl⟩
  case right =>
    intro instrBe
    have isBreak : breakEnableMatch i s = true := by simp [breakEnableMatch, fdt, instrBe]
    rw [retire_special traceOn special legal, traceSpecial, if_pos isBreak]

/-! ### Calls, returns and exceptions (R171) -/

/-- Settles O44: with neither BM nor FDT the flow event is the only record there can be. -/
theorem flowEventMessage : Obligations.FlowEventMessage := by
  intro d i s traceOn special legal noBm noFdt
  have noBreak : breakEnableMatch i s = false := by simp [breakEnableMatch, noBm, noFdt]
  have narrow : wideMatch i s = false := by cases access : i.mem <;> simp [wideMatch, access, noFdt]
  have noData : dataMessages i s = [] := by cases access : i.mem <;> simp [dataMessages, access, noFdt]
  have run := retire_special_records (d := d) traceOn special legal noBreak narrow
  rw [specialMessages, breakpointMessages_off noBm, noData, List.nil_append, List.nil_append, flowEventMessages] at run
  refine ⟨_, run, ?_⟩
  by_cases event : (fceCall i s || fceExc i s || fceRet i s) = true
  · rw [if_pos event, permute_single, generate_single]
    exact (if_pos event).mpr rfl
  · rw [if_neg event, permute_nil, generate_nil]
    exact (if_neg event).mpr rfl

/-! ### User messages (R165, R245) -/

/-- Settles O45: the register is stored, and the message carries the cycle count as it stood. -/
theorem userMessage : Obligations.UserMessage := by
  intro d second v s traceOn special legal
  have access : handleEvent d (.cp0Write (if second then 24 else 23) 3 v) s = cp0Write d second v s := by
    cases second <;> rfl
  have run : cp0Write d second v s = .next (generate [.sUtm (v.setWidth 32) second none] (storeUser second v s)) := by
    simp [cp0Write, traceOn, special, unpredictable_special special legal]
  rw [← access, generate_single] at run
  refine ⟨_, run, ?_⟩
  cases second with
  | false =>
    rw [storeUser_first]
    exact ⟨rfl, rfl, fun _ => ⟨rfl, rfl⟩, nofun⟩
  | true =>
    rw [storeUser_second]
    exact ⟨rfl, rfl, nofun, fun _ => ⟨rfl, rfl⟩⟩

/-! ### Cycles (R162, R164) -/

theorem handleAll_append (d : Config.Draws) (es fs : List Event) (s : State) :
    handleAll d (es ++ fs) s = andThen (handleAll d es s) (handleAll d fs) := by
  induction es generalizing s with
  | nil => rfl
  | cons e es ih =>
    simp only [List.cons_append, handleAll]
    cases handleEvent d e s with
    | next t => exact ih t
    | fault => rfl
    | refused => rfl

theorem tick_counts {d : Config.Draws} {s : State} (traceOn : inTraceOn s = true) (special : s.ifctl.est = true)
    (cyc : s.ifctl.cyc = true) (legal : s.ifctl.illegal = false) : handleEvent d (.tick true) s = .next (countCycle s) := by
  simp [handleEvent, tick, traceOn, unpredictable_special special legal, special, cyc]

theorem countCycle_below {s : State} {n : Nat} (count : s.dcyc = BitVec.ofNat 10 n) (below : n < 1022) :
    countCycle s = { s with dcyc := BitVec.ofNat 10 (n + 1) } := by
  have next : s.dcyc + 1#10 = BitVec.ofNat 10 (n + 1) := by rw [count, ← BitVec.ofNat_add]
  have notDue : BitVec.ofNat 10 (n + 1) ≠ 1023#10 := by
    intro h
    have := congrArg BitVec.toNat h
    simp at this
    omega
  rw [countCycle, next, if_neg notDue]

theorem countCycle_rollover {s : State} (count : s.dcyc = 1022#10) :
    countCycle s = { s with bus := s.bus ++ [.sDcr], dcyc := 0#10 } := by
  rw [countCycle, count, if_pos (by decide)]
  rfl

/-- Settles O46, by induction on the ticks: each counts one cycle, and the one at 1022 is the rollover. -/
theorem rolloverAfter1023Cycles : Obligations.RolloverAfter1023Cycles := by
  intro d s traceOn special cyc legal zero
  have counts : ∀ n, n ≤ 1022 → handleAll d (List.replicate n (.tick true)) s = .next { s with dcyc := BitVec.ofNat 10 n } := by
    intro n
    induction n with
    | zero => exact fun _ => by rw [← zero]; rfl
    | succ n ih =>
      intro below
      have one := tick_counts (d := d) (s := { s with dcyc := BitVec.ofNat 10 n }) traceOn special cyc legal
      rw [countCycle_below rfl (by omega)] at one
      rw [List.replicate_succ', handleAll_append, ih (by omega), andThen, handleAll, one]
      rfl
  refine ⟨counts, ?_⟩
  have last := tick_counts (d := d) (s := { s with dcyc := 1022#10 }) traceOn special cyc legal
  rw [countCycle_rollover rfl] at last
  rw [List.replicate_succ' (n := 1022), handleAll_append, counts 1022 le_rfl, andThen, handleAll, last]
  rfl

end Sys2Proof.Machine
end

section
/-! What breakpoints and events leave alone: closed gates (R261), IFCTL in special mode (R263), everything while trace is off (R130). -/

namespace Sys2Proof.Machine

/-! ### Closed gates -/

/-- The instruction with no breakpoint matching it. -/
def withoutBreakpoints (i : Retired) : Retired :=
  { i with ibp := 0#15, ibpBe := 0#15, mem := i.mem.map fun m => { m with dbp := 0#15, dbpBe := 0#15 } }

/-- No breakpoint of the instruction reaches the trace in this state. -/
def Hidden (i : Retired) (s : State) : Prop :=
  instrTriggers s i = 0#15 ∧ dataTriggers s i = 0#15

theorem hidden_of_closed {s : State} (itrig : s.itrig.gate = false) (dtrig : s.dtrig.gate = false) (i : Retired) : Hidden i s :=
  ⟨gated_closed itrig _ _, gated_closed dtrig _ _⟩

theorem retire_of_hidden {d : Config.Draws} {i : Retired} {s : State} (hidden : Hidden i s) : retire d i s =
    if !s.ifctl.on || s.debugMode then .next s
    else if s.ifctl.est then
      if inTraceOn s then
        if unpredictable s.ifctl then garbage d.garbage s
        else .next (generate (permute d.order (flowEventMessages i s)) s)
      else .next s
    else offerNormal d i { s with latchedEn := none } := by
  obtain ⟨instr, data⟩ := hidden
  have noBreak : breakEnableMatch i s = false := by simp [breakEnableMatch, instr, data]
  have narrow : wideMatch i s = false := by cases access : i.mem <;> simp [wideMatch, access, data]
  have noBm : breakpointMessages d i s = [] := by simp [breakpointMessages, instr, data]
  have noData : dataMessages i s = [] := by cases access : i.mem <;> simp [dataMessages, access, data]
  simp [retire, offerSpecial, traceSpecial, noBreak, narrow, specialMessages, noBm, noData, triggerBefore_of_none instr data,
    triggerAfter_of_none instr data, applyTrigger?]

/-- Settles O49: behind closed gates nothing is left of the instruction that its breakpoints have a part in. -/
theorem closedGatesHideBreakpoints : Obligations.ClosedGatesHideBreakpoints := by
  intro d i s itrig dtrig
  show retire d i s = retire d (withoutBreakpoints i) s
  rw [retire_of_hidden (hidden_of_closed itrig dtrig i), retire_of_hidden (hidden_of_closed itrig dtrig (withoutBreakpoints i))]
  rfl

/-! ### Special mode leaves En alone -/

theorem generate_frame (ms : List Instr) (s : State) :
    generate ms s = { s with bus := (generate ms s).bus, dcyc := (generate ms s).dcyc } := by
  unfold generate
  split <;> rfl

/-- An unpredictable stream writes what emissions write. -/
theorem garbage_frame {ms : List (List Bool)} {s t : State} (run : garbage ms s = .next t) : t = { s with
    acc := t.acc, firstStart := t.firstStart, tmem := t.tmem, wrpAddr := t.wrpAddr, wrpWrap := t.wrpWrap, fifo := t.fifo
    discont := t.discont, needFullPc := t.needFullPc, drawIndex := t.drawIndex } := by
  refine garbage_keeps (fun t => t = { s with
    acc := t.acc, firstStart := t.firstStart, tmem := t.tmem, wrpAddr := t.wrpAddr, wrpWrap := t.wrpWrap, fifo := t.fifo
    discont := t.discont, needFullPc := t.needFullPc, drawIndex := t.drawIndex }) ?_ ms s t rfl run
  intro m u v before _ _ emitted
  rw [emit_frame emitted, before]

/-- What an instruction traced in special mode can do: nothing, an unpredictable stream, or its records. -/
theorem retire_special_cases {d : Config.Draws} {i : Retired} {s t : State} (special : s.ifctl.est = true)
    (run : retire d i s = .next t) :
    t = s ∨ (garbage d.garbage s = .next t) ∨ (unpredictable s.ifctl = false ∧ t = generate (specialMessages d i s) s) := by
  unfold retire at run
  split at run
  · cases run
    exact .inl rfl
  · unfold offerSpecial at run
    split at run
    · split at run
      · exact .inr (.inl run)
      · rename_i predictable
        exact .inr (.inr ⟨by simpa using predictable, (traceSpecial_next run).2.2⟩)
    · cases run
      exact .inl rfl

/-- Settles O50: neither an unpredictable stream nor a record names IFCTL or the latch. -/
theorem specialModeKeepsEnable : Obligations.SpecialModeKeepsEnable := by
  intro d i s t special run
  rcases retire_special_cases special run with rfl | stream | ⟨-, rfl⟩
  · exact ⟨rfl, rfl⟩
  · rw [garbage_frame stream]
    exact ⟨rfl, rfl⟩
  · rw [generate_frame]
    exact ⟨rfl, rfl⟩

/-! ### Trace off -/

/-- Settles O51: with trace off the guards of instruction and tick answer, and a user write is silent. -/
theorem nothingTracedInDebugMode : Obligations.NothingTracedInDebugMode := by
  intro d s off
  have guard : (!s.ifctl.on || s.debugMode) = true := by rcases off with h | h <;> simp [h]
  have traceOff : inTraceOn s = false := by rcases off with h | h <;> simp [inTraceOn, h]
  refine ⟨fun i => if_pos guard, fun b => tick_eq_next_of_stopped_or_traceOff d b s (.inr traceOff), fun v => ?_, fun v => ?_⟩
  · exact (cp0Write_silent (.inl traceOff) d false v).trans (congrArg _ (storeUser_first v s))
  · exact (cp0Write_silent (.inl traceOff) d true v).trans (congrArg _ (storeUser_second v s))

end Sys2Proof.Machine
end

section
/-! What is put on the bus is what the unit may generate in its mode (R105, R108, R162, R166, R171). -/

namespace Sys2Proof.Machine

/-! ### Stamped records -/

/-- A DeltaCycle operand of the mode: there with CYC and only then, and no rollover count (R105, R162). -/
def DeltaOk (cyc : Bool) (dc : Option (BitVec 10)) : Prop :=
  dc.isSome = cyc ∧ dc ≠ some 1023#10

/-- A record before it is stamped: a special-mode message with room for a DeltaCycle, well formed but for that. -/
def IsRecord (m : Instr) : Prop :=
  m.delta = some none ∧ m.wellFormed true false = true

theorem setDelta_wellFormed {m : Instr} (record : IsRecord m) {cyc : Bool} {dc : Option (BitVec 10)} (ok : DeltaOk cyc dc) :
    (setDelta dc m).wellFormed true cyc = true := by
  obtain ⟨room, wellFormed⟩ := record
  obtain ⟨rfl, noRollover⟩ := ok
  cases m with
  | nSeq | nBt | nJ8 | nJ16 | nFpc | nRes | sDcr | sRsv | sRes => cases room
  | sUtm | sBm | sFd | sFce =>
    simp only [Instr.delta, Option.some.injEq] at room
    subst room
    cases dc <;> simp_all [setDelta, Instr.wellFormed, Instr.fits, Instr.isSpecial, Instr.delta]

theorem currentDelta_ok {s : State} (noRollover : s.dcyc ≠ 1023#10) : DeltaOk s.ifctl.cyc (currentDelta s) := by
  unfold currentDelta
  cases s.ifctl.cyc <;> cases s.discont <;> simp [DeltaOk, noRollover]

theorem zeroDelta_ok (s : State) : DeltaOk s.ifctl.cyc (zeroDelta s) := by
  unfold zeroDelta
  cases s.ifctl.cyc <;> simp [DeltaOk]

/-- What generating records adds to the bus is well formed in special mode. -/
theorem generate_wellFormed {ms : List Instr} {s : State} (records : ∀ m ∈ ms, IsRecord m) (noRollover : s.dcyc ≠ 1023#10) :
    ∀ m ∈ (generate ms s).bus, m ∈ s.bus ∨ m.wellFormed true s.ifctl.cyc = true := by
  intro m hm
  cases ms with
  | nil => exact .inl hm
  | cons r rest =>
    rcases List.mem_append.mp hm with old | new
    · exact .inl old
    · right
      rcases List.mem_cons.mp new with rfl | later
      · exact setDelta_wellFormed (records r (List.mem_cons_self ..)) (currentDelta_ok noRollover)
      · obtain ⟨r', hr', rfl⟩ := List.mem_map.mp later
        exact setDelta_wellFormed (records r' (List.mem_cons_of_mem _ hr')) (zeroDelta_ok s)

theorem mem_of_mem_permute {k : Nat} {ms : List Instr} {m : Instr} (h : m ∈ permute k ms) : m ∈ ms := by
  unfold permute at h
  split at h
  · split at h <;> simp at h ⊢ <;> tauto
  · split at h <;> simp at h ⊢ <;> tauto
  · exact h

theorem specialMessages_records {d : Config.Draws} {i : Retired} {s : State} : ∀ m ∈ specialMessages d i s, IsRecord m := by
  intro m hm
  rcases List.mem_append.mp (mem_of_mem_permute hm) with hm | flow
  · rcases List.mem_append.mp hm with breakpoint | data
    · unfold breakpointMessages at breakpoint
      split at breakpoint
      · rw [List.mem_singleton.mp breakpoint]
        exact ⟨rfl, rfl⟩
      · cases breakpoint
    · unfold dataMessages at data
      split at data
      · cases data
      · split at data
        · rw [List.mem_singleton.mp data]
          exact ⟨rfl, by simp [Instr.wellFormed, Instr.fits, Instr.isSpecial, Instr.delta, fieldLaidOut_dataField]⟩
        · cases data
  · unfold flowEventMessages at flow
    split at flow
    · rename_i event
      rw [List.mem_singleton.mp flow]
      exact ⟨rfl, by simpa [Instr.wellFormed, Instr.fits, Instr.isSpecial, Instr.delta] using event⟩
    · cases flow

/-! ### Normal mode -/

theorem normalMessage_wellFormed (d : Config.Draws) (due : Bool) (i : Retired) (s : State) (cyc : Bool) :
    (normalMessage d due i s).wellFormed false cyc = true := by
  unfold normalMessage
  split
  · rfl
  · unfold flowMessage
    split
    · rfl
    · rfl
    · rcases dynamicMessage_cases d i.pc s.lastPc i.ncc with eq | ⟨-, eq⟩ | ⟨-, eq⟩ <;> rw [eq] <;> rfl

theorem traceNormal_wellFormed (d : Config.Draws) (i : Retired) (s : State) (cyc : Bool) :
    ∀ m ∈ (traceNormal d i s).bus, m ∈ s.bus ∨ m.wellFormed false cyc = true := by
  rw [traceNormal_eq]
  intro m hm
  rcases List.mem_append.mp hm with old | new
  · exact .inl old
  · right
    rcases List.mem_append.mp new with resume | message
    · rcases startResume_cases d s with none | ⟨-, -, some⟩
      · rw [none] at resume
        cases resume
      · rw [some] at resume
        rw [List.mem_singleton.mp resume]
        rfl
    · rw [List.mem_singleton.mp message]
      exact normalMessage_wellFormed d _ i s cyc

/-! ### The events -/

/-- What a run adds to the bus is well formed in the mode it began in. -/
def AddsWellFormed (s t : State) : Prop :=
  ∀ m ∈ t.bus, m ∈ s.bus ∨ m.wellFormed s.ifctl.est s.ifctl.cyc = true

theorem AddsWellFormed.of_bus_eq {s t : State} (bus : t.bus = s.bus) : AddsWellFormed s t := fun _ hm => .inl (bus ▸ hm)

theorem garbage_bus {ms : List (List Bool)} {s t : State} (run : garbage ms s = .next t) : t.bus = s.bus := by
  rw [garbage_frame run]

theorem applyTrigger?_bus (d : Config.Draws) (v : Option Bool) (s : State) : (applyTrigger? d v s).bus = s.bus := by
  cases v with
  | none => rfl
  | some b => exact (applyTrigger_gives d b s).2.2.1

theorem retire_wellFormed {d : Config.Draws} {i : Retired} {s t : State} (noRollover : s.dcyc ≠ 1023#10)
    (run : retire d i s = .next t) : AddsWellFormed s t := by
  cases mode : s.ifctl.est with
  | true =>
    rcases retire_special_cases mode run with rfl | stream | ⟨-, rfl⟩
    · exact .of_bus_eq rfl
    · exact .of_bus_eq (garbage_bus stream)
    · rw [AddsWellFormed, mode]
      exact generate_wellFormed specialMessages_records noRollover
  | false =>
    by_cases active : s.ifctl.on = true ∧ s.debugMode = false
    case neg =>
      have guard : (!s.ifctl.on || s.debugMode) = true := by
        grind
      rw [retire, if_pos guard] at run
      cases run
      exact .of_bus_eq rfl
    case pos =>
      rw [retire_normal active.1 active.2 mode] at run
      have bus := applyTrigger?_bus d (triggerBefore d i s) s
      unfold offerNormal at run
      split at run
      · split at run
        · exact .of_bus_eq ((garbage_bus run).trans bus)
        · cases run
          intro m hm
          have added := traceNormal_wellFormed d i _ s.ifctl.cyc m hm
          rw [mode, ← bus]
          exact added
      · cases run
        exact .of_bus_eq bus

theorem cp0Write_wellFormed {d : Config.Draws} {second : Bool} {v : BitVec 64} {s t : State} (noRollover : s.dcyc ≠ 1023#10)
    (run : cp0Write d second v s = .next t) : AddsWellFormed s t := by
  have bus : (storeUser second v s).bus = s.bus := by rw [storeUser_frame]
  have ifctl : (storeUser second v s).ifctl = s.ifctl := by rw [storeUser_frame]
  have dcyc : (storeUser second v s).dcyc = s.dcyc := by rw [storeUser_frame]
  unfold cp0Write at run
  split_ifs at run with arbitrary special
  · exact .of_bus_eq ((garbage_bus run).trans bus)
  · simp only [Bool.and_eq_true] at special
    cases run
    rw [AddsWellFormed, special.2, ← bus, ← ifctl]
    exact generate_wellFormed (by simp [IsRecord, Instr.delta, Instr.wellFormed, Instr.fits, Instr.isSpecial]) (dcyc ▸ noRollover)
  · cases run
    exact .of_bus_eq bus

theorem tick_wellFormed {d : Config.Draws} {clockRunning : Bool} {s t : State} (run : tick d clockRunning s = .next t) :
    AddsWellFormed s t := by
  unfold tick at run
  split_ifs at run with idle arbitrary counted
  · cases run
    exact .of_bus_eq rfl
  · exact .of_bus_eq (garbage_bus run)
  · simp only [Bool.and_eq_true] at counted
    cases run
    rw [AddsWellFormed, counted.1, counted.2]
    unfold countCycle
    split
    · intro m hm
      rcases List.mem_append.mp hm with old | new
      · exact .inl old
      · rw [List.mem_singleton.mp new]
        exact .inr rfl
    · exact fun m hm => .inl hm
  · cases run
    exact .of_bus_eq rfl

theorem readTraceWord_bus {v : TraceWord → BitVec 64} {k : State → State} {s t : State} (kept : (k s).bus = s.bus)
    (run : readTraceWord v k s = .next t) : t.bus = s.bus := by
  obtain ⟨-, -, rfl⟩ := readTraceWord_next run
  exact kept

theorem regRead_bus {offset : Nat} {width : Width} {s t : State} (run : regRead offset width s = .next t) : t.bus = s.bus := by
  unfold regRead at run
  split at run
  · cases run
  · rename_i r _
    split at run
    · cases run
    · cases width with
      | byte | half => cases run
      | word =>
        cases r with
        | itcbtwLow =>
          rw [readRegister, readWord32] at run
          exact readTraceWord_bus (k := advanceRead) rfl run
        | itcbtwHigh =>
          rw [readRegister, readWord32] at run
          exact readTraceWord_bus (k := id) rfl run
        | itcbrdp | itcbwrp | ifctl | itrig | dtrig => cases run; rfl
      | double =>
        cases r with
        | itcbtwLow =>
          rw [readRegister, readWord64] at run
          split at run
          · exact readTraceWord_bus (k := advanceRead) rfl run
          · cases run
        | itcbtwHigh | itcbrdp | itcbwrp | ifctl | itrig | dtrig => cases run

theorem writeWord_bus {w : TraceWord} {s t : State} (run : writeWord w s = .next t) : t.bus = s.bus := by
  rcases writeWord_next run with ⟨-, rfl⟩ | ⟨-, -, rfl⟩
  · rcases queueWord_cases w s with ⟨-, eq⟩ | ⟨-, eq⟩
    · rw [eq]
      rfl
    · rw [eq]
  · rfl

theorem flush_bus {s t : State} (run : flush s = .next t) : t.bus = s.bus := by
  rcases flush_next run with ⟨-, rfl⟩ | ⟨-, written⟩
  · rfl
  · exact writeWord_bus (s := clearAcc s) written

theorem writeIfctl_bus {d : Config.Draws} {v : Word} {s t : State} (run : writeIfctl d v s = .next t) : t.bus = s.bus := by
  unfold writeIfctl at run
  split_ifs at run
  · exact flush_bus (s := withIfctl (ifctlWritten s.params v s.ifctl) s) run
  · cases run
    rw [reevaluate_frame]
    rfl

theorem regWrite_bus {d : Config.Draws} {offset : Nat} {width : Width} {v : BitVec 64} {s t : State}
    (run : regWrite d offset width v s = .next t) : t.bus = s.bus := by
  unfold regWrite at run
  split at run
  · cases run
  · rename_i r _
    split at run
    · cases run
    · cases width with
      | byte | half | double => cases run
      | word =>
        cases r with
        | ifctl => exact writeIfctl_bus run
        | itcbrdp =>
          simp only [writeRegister, writeWord32, writeRdp] at run
          split at run <;> cases run
          rfl
        | itcbwrp =>
          simp only [writeRegister, writeWord32, writeWrp] at run
          split at run <;> cases run
          rfl
        | itcbtwLow | itcbtwHigh | itrig | dtrig => cases run; rfl

theorem idleSlot_bus (s : State) : (idleSlot s).bus = s.bus := by
  rcases idleSlot_cases s with ⟨-, -, eq⟩ | ⟨-, eq⟩
  · rw [eq]
    rfl
  · rw [eq]

theorem pibTake_bus (s : State) : (pibTake s).bus = s.bus := by
  rcases pibTake_cases s with ⟨w, rest, -, -, -, -, eq⟩ | ⟨-, eq⟩
  · rw [eq]
    rfl
  · rw [eq, idleSlot_bus]

/-- Settles O52: instructions, user writes and ticks add well-formed messages, and no other event adds any. -/
theorem generatedMessagesAreWellFormed : Obligations.GeneratedMessagesAreWellFormed := by
  intro d e s t noRollover run
  show AddsWellFormed s t
  cases e with
  | tick clockRunning => exact tick_wellFormed run
  | retire i => exact retire_wellFormed noRollover run
  | cp0Write register select v =>
    obtain ⟨second, -, run⟩ := cp0Access_next run
    exact cp0Write_wellFormed noRollover run
  | cp0Read register select =>
    obtain ⟨second, -, run⟩ := cp0Access_next run
    cases run
    exact .of_bus_eq rfl
  | regRead offset width => exact .of_bus_eq (regRead_bus run)
  | regWrite offset width v => exact .of_bus_eq (regWrite_bus run)
  | debugLeave =>
    cases run
    exact .of_bus_eq (by rw [debugLeave, reevaluate_frame])
  | pibTake =>
    cases run
    exact .of_bus_eq (pibTake_bus s)
  | idleSlot =>
    cases run
    exact .of_bus_eq (idleSlot_bus s)
  | reset =>
    cases run
    exact fun m hm => by cases hm
  | config3Read | debugEnter | probeAttach | capture | captureProbe =>
    cases run
    exact .of_bus_eq rfl

end Sys2Proof.Machine
end

section
/-! The port delivers a queued word in sixteen slots (R115, R212 to R216), and a stall holds the core (R210). -/

namespace Sys2Proof.Machine

/-! ### The nibbles of a word -/

/-- Nibble `j` of a trace word, for any `j` (R115). -/
def nibbleAt (w : TraceWord) (j : Nat) : BitVec 4 :=
  w.extractLsb' (4 * j) 4

theorem nibble_eq (w : TraceWord) (j : Fin 16) : nibble w j = nibbleAt w j := rfl

/-- Putting nibble `j` below what stands above it gives what stands from `j` on. -/
theorem shift_or_nibbleAt (w : TraceWord) (j : Nat) :
    ((w >>> (4 * (j + 1))) <<< 4) ||| (nibbleAt w j).setWidth 64 = w >>> (4 * j) := by
  refine BitVec.eq_of_getLsbD_eq fun k hk => ?_
  rw [BitVec.getLsbD_or, BitVec.getLsbD_shiftLeft, BitVec.getLsbD_ushiftRight, BitVec.getLsbD_ushiftRight, BitVec.getLsbD_setWidth,
    nibbleAt, BitVec.getLsbD_extractLsb']
  by_cases low : k < 4
  · simp [low, hk]
  · have index : 4 * (j + 1) + (k - 4) = 4 * j + k := by omega
    simp [low, hk, index]

/-- The nibbles from `j` on make the word from nibble `j` on. -/
theorem nibblesWord_range' (w : TraceWord) (n j : Nat) (all : j + n = 16) :
    nibblesWord ((List.range' j n).map (nibbleAt w)) = w >>> (4 * j) := by
  induction n generalizing j with
  | zero =>
    obtain rfl : j = 16 := by omega
    refine BitVec.eq_of_getLsbD_eq fun k hk => ?_
    rw [BitVec.getLsbD_ushiftRight, BitVec.getLsbD_of_ge w _ (by omega)]
    exact BitVec.getLsbD_zero
  | succ n ih =>
    rw [List.range'_succ, List.map_cons, nibblesWord, ih (j + 1) (by omega), shift_or_nibbleAt]

/-- The sixteen nibbles of a word make the word. -/
theorem nibblesWord_nibbles (w : TraceWord) : nibblesWord ((List.range 16).map (nibbleAt w)) = w := by
  rw [List.range_eq_range', nibblesWord_range' w 16 0 rfl]
  exact BitVec.ushiftRight_zero w

/-! ### The receiver -/

theorem sample_idle {r : Receiver} (waiting : r.nibbles = []) : sample 0#4 r = r := by
  simp [sample, waiting]

/-- The receiver of the first `j` nibbles of a word waits, unless the nibble before it begins the word (R213). -/
theorem not_waiting {w : TraceWord} {j : Nat} {r : Receiver} (framed : Framed w) (has : r.nibbles = (List.range j).map (nibbleAt w)) :
    (r.nibbles.isEmpty && nibbleAt w j == 0#4) = false := by
  cases j with
  | zero =>
    have first : (nibbleAt w 0 == 0#4) = false := beq_eq_false_iff_ne.mpr framed
    rw [first, Bool.and_false]
  | succ j => simp [has, List.range_succ]

theorem sample_next {w : TraceWord} {j : Nat} {r : Receiver} (framed : Framed w) (has : r.nibbles = (List.range j).map (nibbleAt w))
    (before : j < 15) : sample (nibbleAt w j) r = { r with nibbles := (List.range (j + 1)).map (nibbleAt w) } := by
  have short : r.nibbles.length + 1 < 16 := by simp [has]; omega
  rw [sample, if_neg (by simp [not_waiting framed has]), if_pos short, has, List.range_succ, List.map_append, List.map_singleton]

theorem sample_last {w : TraceWord} {r : Receiver} (framed : Framed w) (has : r.nibbles = (List.range 15).map (nibbleAt w)) :
    sample (nibbleAt w 15) r = { nibbles := [], words := r.words ++ [{ word := w, afterGap := r.gap }], gap := false } := by
  have all : r.nibbles ++ [nibbleAt w 15] = (List.range 16).map (nibbleAt w) := by
    rw [has, List.range_succ (n := 15), List.map_append, List.map_singleton]
  rw [sample, if_neg (by simp [not_waiting framed has]), if_neg (by simp [has]), all, nibblesWord_nibbles]

/-! ### Slots -/

/-- The state after a slot of a connected probe (R212 to R214). -/
def afterSlot (r : Receiver) (tx : Option Tx) (s : State) : State :=
  { s with trClk := !s.trClk, portCycles := s.portCycles + slotCycles s.ifctl, receiver := r, tx := tx, trData := portNibble tx }

theorem step_slot {s : State} {w : TraceWord} {j : Fin 16} (idle : s.reader.active = false) (connected : s.probeConnected = true)
    (sending : s.tx = some { word := w, nibble := j }) :
    step s = .next (afterSlot (sample (nibbleAt w j) s.receiver) (nextTx { word := w, nibble := j }) s) := by
  simp [step, stepWith, idle, sending, transfer, drive, slot, connected, afterSlot, nibble_eq]

theorem run_succ {M : Host.Core} {s t : M.State} (k : Nat) (one : M.step s = .next t) : M.run (k + 1) s = M.run k t := by
  rw [Host.Core.run, one]

/-- From nibble `j` on, the remaining slots complete the word at the receiver. -/
theorem run_transfer {w : TraceWord} (framed : Framed w) (n : Nat) (s : State) (j : Fin 16) (left : j.val + n = 15)
    (idle : s.reader.active = false) (connected : s.probeConnected = true) (sending : s.tx = some { word := w, nibble := j })
    (has : s.receiver.nibbles = (List.range j).map (nibbleAt w)) :
    ∃ clk, Host.Core.run Sys2Proof.core (n + 1) s = .next { s with
      trClk := clk, portCycles := s.portCycles + (n + 1) * slotCycles s.ifctl
      receiver := { nibbles := [], words := s.receiver.words ++ [{ word := w, afterGap := s.receiver.gap }], gap := false }
      tx := none, trData := 0#4 } := by
  have one := step_slot idle connected sending
  induction n generalizing s j with
  | zero =>
    obtain rfl : j = 15 := Fin.ext (by simpa using left)
    rw [show (15 : Fin 16).val = 15 from rfl, sample_last framed has] at one
    exact ⟨!s.trClk, (run_succ (M := Sys2Proof.core) 0 one).trans (by rw [Nat.zero_add, Nat.one_mul]; rfl)⟩
  | succ n ih =>
    have before : j.val < 15 := by omega
    have value : (j + 1).val = j.val + 1 := Fin.val_add_one_of_lt (by simpa [Fin.lt_def] using before)
    have next : nextTx { word := w, nibble := j } = some { word := w, nibble := j + 1 } :=
      if_neg fun last : j = 15 => by rw [last] at before; exact absurd before (by decide)
    rw [sample_next framed has before, next] at one
    obtain ⟨clk, run⟩ := ih (afterSlot { s.receiver with nibbles := (List.range (j + 1)).map (nibbleAt w) }
      (some { word := w, nibble := j + 1 }) s) (j + 1) (by omega) idle connected rfl (by rw [value]; rfl)
      (step_slot idle connected rfl)
    refine ⟨clk, (run_succ (M := Sys2Proof.core) (n + 1) one).trans (run.trans ?_)⟩
    have cycles : s.portCycles + slotCycles s.ifctl + (n + 1) * slotCycles s.ifctl =
        s.portCycles + (n + 1 + 1) * slotCycles s.ifctl := by ring
    rw [← cycles]
    rfl

/-- Settles O53: a PibTake loads the word, and its sixteen slots are sampled one nibble each. -/
theorem sixteenSlotsDeliverWord : Obligations.SixteenSlotsDeliverWord := by
  refine ⟨fun d s w rest offChip fifo noTx gate => ?load, fun d s noTx waiting connected => ?idle,
    fun s w inactive connected sending waiting framed => ?deliver⟩
  case load =>
    have enabled : portEnabled s = true := by
      by_cases gated : s.params.hasTrProbeN = true ∧ s.params.probeGatesPort = true
      · simp [portEnabled, gate gated.1 gated.2]
      · have open_ : (s.params.hasTrProbeN && s.params.probeGatesPort) = false := by simpa using gated
        simp [portEnabled, open_]
    have ready : pibReady s = true := by simp [pibReady, offChip, fifo, noTx, enabled]
    show Host.Outcome.next (pibTake s) = _
    rw [pibTake, if_pos ready, loadTx, fifo]
    rfl
  case idle =>
    refine ⟨idleSlot s, rfl, ?_⟩
    rcases idleSlot_cases s with ⟨-, -, eq⟩ | ⟨noPib, eq⟩
    · have kept : (drive none (slot 0#4 s)).receiver = s.receiver := by
        simp [slot, connected, sample_idle waiting]
      rw [eq]
      exact ⟨kept, rfl, rfl, fun _ => rfl⟩
    · rw [eq]
      refine ⟨rfl, rfl, noTx, fun hasPib => ?_⟩
      simp [hasPib, noTx] at noPib
  case deliver =>
    obtain ⟨clk, run⟩ := run_transfer framed 15 s 0 rfl inactive connected sending waiting
    exact ⟨_, run, rfl, rfl, rfl, rfl, rfl, rfl, rfl⟩

/-! ### A stall -/

/-- Settles O55: an event that a stall holds is not enabled, and one that it lets pass is free running. -/
theorem stallHoldsTheCore : Obligations.StallHoldsTheCore := by
  intro s stall
  refine ⟨fun held es e rest taken => ?_, fun b es => rfl, fun es => rfl⟩
  have enabled := (takeEvent_enabled taken).2
  constructor
  · rintro i rfl
    simp [freeRunning, eventHeld, stall] at enabled
  · rintro k l v rfl
    simp [freeRunning, eventHeld, stall] at enabled

end Sys2Proof.Machine
end
